-- ==== Sys2Proof/Word.lean ====
section
/-! DEFINITION. The two word types of the block (R11, R7): a byte, and a 32-bit time. -/

namespace Sys2Proof

/-- A byte, 8 bits, 0 .. 255 (R11). -/
abbrev Byte := BitVec 8

/-- A time value, W_TIME = 32 bits wide (R7): `now`, `pend_time`, `sched_ref`. Subtraction is the
`-_32` of R11. -/
abbrev Time := BitVec 32

end Sys2Proof
end

