-- ==== Sys2Proof/Config.lean ====
section
/-! DEFINITION. What one instance of the block fixes: the parameters of R7 with R7's constraints, the
values 95_test_vectors.md uses for them, the two terminator bytes of R162, and the free values of
array elements that hold no defined value (R34, U2). -/

namespace Sys2Proof.Config

/-- What the decoder does with the rest of a span after a terminator (R7, R165). -/
inductive ScanPolicy
  | dropRest    -- DROP_REST, the default (R8)
  | continueScan    -- CONTINUE
deriving DecidableEq, Repr

/-- How the correlator compares (R7, R184). -/
inductive EchoPolicy
  | exact       -- EXACT, the default (R8)
  | contains    -- CONTAINS
deriving DecidableEq, Repr

/-- The four byte arrays of the block (R34): four disjoint index spaces (R60). -/
inductive ArrayName
  | ring | asm | pendText | txBuf
deriving DecidableEq, Repr

/-- The parameters of R7 (U10), with R7's constraints carried as proofs, so that a parameter set no
block can have cannot be built. W_TIME is fixed at 32 (the type `Time`); KA_LEN is the length of
`kaText`. `charPeriod` is read by no rule (R7, R140 (c)). -/
structure Params where
  capacity : Nat
  maxLen : Nat
  txMax : Nat
  interval : Nat
  kaText : List Byte
  scanPolicy : ScanPolicy
  echoPolicy : EchoPolicy
  charPeriod : Nat
  capacity_pos : 1 ≤ capacity
  capacity_le : capacity ≤ 65535
  maxLen_ge : 2 ≤ maxLen
  maxLen_le : maxLen ≤ 255
  txMax_pos : 1 ≤ txMax
  txMax_le : txMax ≤ 255
  interval_pos : 1 ≤ interval
  interval_lt : interval < 2 ^ 31
  kaText_pos : 1 ≤ kaText.length
  kaText_le : kaText.length ≤ txMax
  charPeriod_pos : 1 ≤ charPeriod
deriving DecidableEq, Repr

/-- The parameter values 95_test_vectors.md uses unless a vector says otherwise (R7, last column;
the policies' defaults, R8). DESIGN CHOICE, unsafe (log 1): the parameters `State.reset` carries.
`charPeriod` has no value in the spec: 1 (log 2). -/
def defaultParams : Params where
  capacity := 8
  maxLen := 8
  txMax := 16
  interval := 1000
  kaText := [0x41, 0x54, 0x0D, 0x0A]
  scanPolicy := .dropRest
  echoPolicy := .exact
  charPeriod := 1
  capacity_pos := by decide
  capacity_le := by decide
  maxLen_ge := by decide
  maxLen_le := by decide
  txMax_pos := by decide
  txMax_le := by decide
  interval_pos := by decide
  interval_lt := by decide
  kaText_pos := by decide
  kaText_le := by decide
  charPeriod_pos := by decide

/-- Carriage-return, the first byte of the terminator (R162). PRESUMED (log 10): the value is the
spec's own general-knowledge passage G2. -/
def cr : Byte := 0x0D

/-- Line-feed, the second byte of the terminator (R162). PRESUMED (log 10). -/
def lf : Byte := 0x0A

/-- FREE VALUE (log 4): what element `i` of array `a` reads as while no operation has written it
since the reset numbered `epoch` (R34: "unspecified"; U2: any value). Nothing constrains it. -/
opaque unspecifiedByte (a : ArrayName) (epoch i : Nat) : Byte

end Sys2Proof.Config
end

