-- ==== Sys2Proof/Syntax.lean ====
section
/-! DEFINITION. The events of the block (R9, R92): one constructor for each row of opcode_table.json.
An operand that the encoding cannot carry (`br = 11b`, R95) cannot be written here. -/

namespace Sys2Proof

/-- The outbound engine's answer to `begin_transfer` (R95): 00b, 01b, 10b. The code 11b is reserved. -/
inductive Br
  | ok | busy | error
deriving DecidableEq, Repr

/-- Who raises an event (R9, R10): the host or power-on, the transfer engine, the interrupt context,
the main loop. The environment X raises none: it supplies operands and the order of events. -/
inductive Agent
  | H | P | I | M
deriving DecidableEq, Repr

/-- An event: an operation of R9, or one micro-step of `IDLE` raised on its own (R90, R92). -/
inductive Instr
  /-- `RESET` (R270). -/
  | reset
  /-- `START` (R122). -/
  | start
  /-- `RXBYTE b` (R123). -/
  | rxbyte (b : Byte)
  /-- `IDLE` (R145). -/
  | idle
  /-- `TXDONE` (R204). -/
  | txdone
  /-- `IDLE1`, micro-step 1 alone (R146). -/
  | idle1
  /-- `IDLE2`, one micro-step 2 alone (R147). -/
  | idle2
  /-- `IDLE3`, micro-step 3 alone (R149). -/
  | idle3
  /-- `SENDD`, a send that is not a command (R200). -/
  | sendd (br : Br) (now : Time) (data : List Byte)
  /-- `SENDC`, a command send (R201). -/
  | sendc (br : Br) (now : Time) (data : List Byte)
  /-- `POLL`, the scheduler tick (R207). -/
  | poll (br : Br) (now : Time)
deriving DecidableEq, Repr

/-- The agent that raises an event (R9; the `agent` column of R92). -/
def Instr.agent : Instr → Agent
  | .reset => .H
  | .start => .M
  | .rxbyte _ => .P
  | .idle => .I
  | .txdone => .I
  | .idle1 => .I
  | .idle2 => .I
  | .idle3 => .I
  | .sendd _ _ _ => .M
  | .sendc _ _ _ => .M
  | .poll _ _ => .M

/-- The pseudo-operation `RX "s"` (R106): one `RXBYTE` for each byte, in order. -/
def Instr.rx (s : List Byte) : List Instr := s.map Instr.rxbyte

/-- The pseudo-operation `RXI "s"` (R106): `RX "s"` and then `IDLE`. -/
def Instr.rxi (s : List Byte) : List Instr := Instr.rx s ++ [.idle]

/-- The pseudo-operation `TRYSEND now=<n> "s"` (R106, R202): the source's `try_send`. -/
def Instr.trysend (now : Time) (s : List Byte) : Instr := .sendc .ok now s

/-- The pseudo-operation `DRAIN` (R106) over a span of `n` bytes: the micro-steps of one `IDLE`. -/
def Instr.drain (n : Nat) : List Instr := .idle1 :: (List.replicate n .idle2 ++ [.idle3])

end Sys2Proof
end

