-- ==== Sys2Proof/WellFormed.lean ====
section
/-! DEFINITION. Which events are legal as syntax (R99 cases (a) to (d), R97): an `Instr` already has a
known opcode and a legal `env`, so the one check left is the length of a send's data. -/

namespace Sys2Proof

/-- The legal values of `len` are 1 .. TX_MAX (R97). -/
def Instr.lenLegal (p : Config.Params) (data : List Byte) : Bool :=
  decide (1 ≤ data.length) && decide (data.length ≤ p.txMax)

/-- A legal event of a block with parameters `p` (R97, R99 case (c)). -/
def Instr.wellFormed (p : Config.Params) : Instr → Bool
  | .reset => true
  | .start => true
  | .rxbyte _ => true
  | .idle => true
  | .txdone => true
  | .idle1 => true
  | .idle2 => true
  | .idle3 => true
  | .sendd _ _ data => Instr.lenLegal p data
  | .sendc _ _ data => Instr.lenLegal p data
  | .poll _ _ => true

/-- An event whose data length fits the one-byte field `len` (R97): every legal event's does, since
TX_MAX ≤ 255. It is all the encoding needs. -/
def Instr.encodable : Instr → Bool
  | .reset => true
  | .start => true
  | .rxbyte _ => true
  | .idle => true
  | .txdone => true
  | .idle1 => true
  | .idle2 => true
  | .idle3 => true
  | .sendd _ _ data => decide (data.length ≤ 255)
  | .sendc _ _ data => decide (data.length ≤ 255)
  | .poll _ _ => true

end Sys2Proof
end

