-- ==== Sys2Proof/Decode.lean ====
section
/-! DEFINITION. The event stream (30_encoding.md): the opcode map, the decoder, total on any bytes and
refusing by name, and after it the encoder. An event's length follows from byte 0 and, for format S,
the byte at offset 6 (R98). -/

namespace Sys2Proof

/-! ## The opcode map (R92) -/

/-- The operation an opcode byte selects (R92). -/
inductive Op
  | reset | start | rxbyte | idle | txdone | idle1 | idle2 | idle3 | sendd | sendc | poll
deriving DecidableEq, Repr

/-- The event formats (R91). -/
inductive Format
  | Z | B | T | S
deriving DecidableEq, Repr

/-- A row of R92: an event is selected when `opcode & mask = value`. -/
structure OpRow where
  op : Op
  format : Format
  mask : Byte
  value : Byte
deriving DecidableEq, Repr

/-- The opcode map of R92, in the order of opcode_table.json. -/
def opcodeTable : List OpRow :=
  [ ⟨.reset,  .Z, 0xFF, 0x00⟩,
    ⟨.start,  .Z, 0xFF, 0x01⟩,
    ⟨.rxbyte, .B, 0xFF, 0x10⟩,
    ⟨.idle,   .Z, 0xFF, 0x20⟩,
    ⟨.txdone, .Z, 0xFF, 0x21⟩,
    ⟨.idle1,  .Z, 0xFF, 0x22⟩,
    ⟨.idle2,  .Z, 0xFF, 0x23⟩,
    ⟨.idle3,  .Z, 0xFF, 0x24⟩,
    ⟨.sendd,  .S, 0xFF, 0x30⟩,
    ⟨.sendc,  .S, 0xFF, 0x31⟩,
    ⟨.poll,   .T, 0xFF, 0x32⟩ ]

/-- Whether byte 0 selects the row (R92). -/
def OpRow.selects (r : OpRow) (b : Byte) : Bool := decide (b &&& r.mask = r.value)

/-- The operation byte 0 selects; none for the 245 reserved opcode values (R92, R99 case (a)). -/
def lookupOp (b : Byte) : Option Op := (opcodeTable.find? fun r => r.selects b).map (·.op)

/-- The agent class that bits [7:4] of an opcode name: 0 system, 1 producer, 2 interrupt context,
3 main loop (R92). `START` is in the system class although agent M raises it. -/
inductive AgentClass
  | system | producer | interrupt | mainLoop
deriving DecidableEq, Repr

/-- The agent class of an opcode byte (R92); none for a high nibble above 3. -/
def agentClass (b : Byte) : Option AgentClass :=
  match (b.extractLsb' 4 4).toNat with
  | 0 => some .system
  | 1 => some .producer
  | 2 => some .interrupt
  | 3 => some .mainLoop
  | _ => none

/-! ## Operand assembly (R93 to R97) -/

/-- Why the decoder refuses an event (R99 cases (a), (b), (d)). Case (c), the length of a send's
data, depends on the parameter TX_MAX and is checked with case (e) when the event is applied
(R104; log 14). -/
inductive DecodeError
  /-- (a): the opcode is not in the table of R92. -/
  | unknownOpcode
  /-- (b): `env[7:2] ≠ 0` (R94). -/
  | reservedEnv
  /-- (b): `br = 11b` (R95). -/
  | reservedBr
  /-- (d): the stream ends before the event's last byte. -/
  | truncated
deriving DecidableEq, Repr

/-- `br` from `env[1:0]`, with `env[7:2]` required to be 0 (R94, R95). -/
def decodeEnv (env : Byte) : Except DecodeError Br :=
  if env.extractLsb' 2 6 = 0 then
    match (env.extractLsb' 0 2).toNat with
    | 0 => .ok .ok
    | 1 => .ok .busy
    | 2 => .ok .error
    | _ => .error .reservedBr
  else .error .reservedEnv

/-- `now`, little-endian (R96): `b0` is the byte at offset 2 of the event, `b3` that at offset 5. -/
def leTime (b0 b1 b2 b3 : Byte) : Time := b3 ++ b2 ++ b1 ++ b0

/-! ## The decoder (R98, R99) -/

/-- What the decoder finds at the head of a stream: the end of the trace, an event and the bytes
after it, or an invalid event and the bytes after that. -/
inductive Decoded
  | ended
  | event (i : Instr) (rest : List Byte)
  | invalid (why : DecodeError) (rest : List Byte)
deriving DecidableEq, Repr

/-- Format B after byte 0 (R91). -/
def decodeByteEvent (make : Byte → Instr) : List Byte → Decoded
  | b :: rest => .event (make b) rest
  | [] => .invalid .truncated []

/-- Format T after byte 0 (R91): `env` and `now`. -/
def decodeTimedEvent (make : Br → Time → Instr) : List Byte → Decoded
  | env :: n0 :: n1 :: n2 :: n3 :: rest =>
    match decodeEnv env with
    | .ok br => .event (make br (leTime n0 n1 n2 n3)) rest
    | .error e => .invalid e rest
  | _ => .invalid .truncated []

/-- Format S after byte 0 (R91, R97): `env`, `now`, `len`, and exactly `len` bytes of data. -/
def decodeSendEvent (make : Br → Time → List Byte → Instr) : List Byte → Decoded
  | env :: n0 :: n1 :: n2 :: n3 :: len :: tail =>
    if tail.length < len.toNat then .invalid .truncated []
    else
      match decodeEnv env with
      | .ok br => .event (make br (leTime n0 n1 n2 n3) (tail.take len.toNat)) (tail.drop len.toNat)
      | .error e => .invalid e (tail.drop len.toNat)
  | _ => .invalid .truncated []

/-- The decoder: the event at the head of a stream (R98). An unknown opcode is one byte long, a
truncated event is everything that is left, and every other invalid event keeps its format's length
(R99). -/
def decodeEvent : List Byte → Decoded
  | [] => .ended
  | op :: tail =>
    match lookupOp op with
    | none => .invalid .unknownOpcode tail
    | some .reset => .event .reset tail
    | some .start => .event .start tail
    | some .rxbyte => decodeByteEvent .rxbyte tail
    | some .idle => .event .idle tail
    | some .txdone => .event .txdone tail
    | some .idle1 => .event .idle1 tail
    | some .idle2 => .event .idle2 tail
    | some .idle3 => .event .idle3 tail
    | some .sendd => decodeSendEvent .sendd tail
    | some .sendc => decodeSendEvent .sendc tail
    | some .poll => decodeTimedEvent .poll tail

/-- One verdict of the decoder on a whole stream (R98). -/
inductive Verdict
  | event (i : Instr)
  | invalid (why : DecodeError)
deriving DecidableEq, Repr

/-- At most `fuel` verdicts of a stream. Every event takes at least one byte, so the stream's length
is enough fuel. -/
def decodeUpTo : Nat → List Byte → List Verdict
  | 0, _ => []
  | fuel + 1, bytes =>
    match decodeEvent bytes with
    | .ended => []
    | .event i rest => .event i :: decodeUpTo fuel rest
    | .invalid why rest => .invalid why :: decodeUpTo fuel rest

/-- The decoder as R98 states it: a total function from byte strings to sequences of events and
verdicts. -/
def decodeStream (bytes : List Byte) : List Verdict := decodeUpTo bytes.length bytes

/-- The longest event, a send of 255 data bytes (R91: 7 + `len`). -/
def maxEventBytes : Nat := 262

/-- The bytes of a numbered table word: byte `k` is bits `8k + 7 .. 8k` of `w`, bits at and above
`nbits` are 0, and zeros follow up to the longest event. -/
def wordBytes (nbits w : Nat) : List Byte :=
  (List.range (max maxEventBytes ((nbits + 7) / 8))).map
    fun k => BitVec.ofNat 8 ((w % 2 ^ nbits) >>> (8 * k))

/-- What the decoder reads from a numbered table word. -/
def decodeTableWord (nbits w : Nat) : Option Instr :=
  match decodeEvent (wordBytes nbits w) with
  | .event i _ => some i
  | .invalid _ _ => none
  | .ended => none

/-! ## The encoder (R91) -/

/-- `br` as the byte `env` (R94, R95). -/
def encodeEnv : Br → Byte
  | .ok => 0
  | .busy => 1
  | .error => 2

/-- `now` as four bytes, little-endian (R96). -/
def encodeTime (t : Time) : List Byte :=
  [t.extractLsb' 0 8, t.extractLsb' 8 8, t.extractLsb' 16 8, t.extractLsb' 24 8]

/-- Format S (R91, R97). -/
def encodeSend (op : Byte) (br : Br) (now : Time) (data : List Byte) : List Byte :=
  op :: encodeEnv br :: (encodeTime now ++ BitVec.ofNat 8 data.length :: data)

/-- The bytes of an event (R91, R92). -/
def encode : Instr → List Byte
  | .reset => [0x00]
  | .start => [0x01]
  | .rxbyte b => [0x10, b]
  | .idle => [0x20]
  | .txdone => [0x21]
  | .idle1 => [0x22]
  | .idle2 => [0x23]
  | .idle3 => [0x24]
  | .sendd br now data => encodeSend 0x30 br now data
  | .sendc br now data => encodeSend 0x31 br now data
  | .poll br now => 0x32 :: encodeEnv br :: encodeTime now

/-- The event stream of a trace: its events' encodings in order, nothing between them (R90). -/
def encodeStream (trace : List Instr) : List Byte := trace.flatMap encode

end Sys2Proof
end

