-- ==== Sys2Proof/Machine/State.lean ====
section
/-! DEFINITION. The state of the block (10_state.md), the records of its output log, the conditions, and
the state after reset. -/

namespace Sys2Proof.Machine

/-- The results a send returns (R44, R100). -/
inductive ResCode
  | ok | busy
deriving DecidableEq, Repr

/-- A record of the output log (R44). `msg` is `on_message(text)`, `txstart` the start of an outbound
transfer, `res` the result of a send, `reject` an invalid event (R99). -/
inductive Record
  | msg (text : List Byte)
  | txstart (data : List Byte)
  | res (code : ResCode)
  | reject
deriving DecidableEq, Repr

/-- The four conditions (R231). `peripheralError` is raised outside the block and never reaches it
(R128, R235): nothing in the model raises it. -/
inductive Condition
  | overrun | oversize | busy | peripheralError
deriving DecidableEq, Repr

/-- The codes of the conditions (R231, D35): an identification, no register holds one. -/
def Condition.code : Condition → Nat
  | .overrun => 1
  | .oversize => 2
  | .busy => 3
  | .peripheralError => 4

/-- One byte array of the block (R34): its written elements, at strictly rising indices. An unlisted
index is an element that holds no defined value. -/
abbrev Memory := List Host.Cell

/-- The canonical form: indices strictly rising. No entry can equal what an unlisted index reads as,
since that is the absence of a value (log 17). -/
def Memory.wf : Memory → Bool
  | [] => true
  | [_] => true
  | c :: d :: m => decide (c.1 < d.1) && Memory.wf (d :: m)

/-- The transient state of a running `IDLE` (R35): it exists exactly while `idle_run` = 1. `ws` is the
ghost `Ws` (R45, R146). -/
structure Drain where
  wp : Nat
  pos : Nat
  stop : Bool
  ws : Nat
deriving DecidableEq, Repr

/-- THE STATE OF THE BLOCK: what 10_state.md gives it, and nothing R38 keeps out of it (no parameter, no
trace, no order of agents, no answer of the outbound engine). -/
structure Block where
  /-- R23: the transfer engine is armed. -/
  armed : Bool
  /-- R23: bytes left to fill in the current buffer pass, 1 .. CAPACITY. -/
  remaining : Nat
  /-- R24: a byte has been stored since the last `IDLE` began. -/
  rxSeen : Bool
  /-- R25: the ring index of the oldest byte not yet delivered, 0 .. CAPACITY - 1. -/
  consumed : Nat
  /-- R26: the assembler's write cursor, 0 .. MAX_LEN. -/
  cursor : Nat
  /-- R27: the length of the most recently completed message, 0 .. MAX_LEN - 2. -/
  msgLen : Nat
  /-- R28: the "message ready" mark. -/
  ready : Bool
  /-- R29: a command has been sent and not yet matched by an echo. -/
  pendValid : Bool
  /-- R29: the length of the pending command, 0 .. TX_MAX. -/
  pendLen : Nat
  /-- R29: the issue timestamp of the pending command; read by no rule (R189). -/
  pendTime : Time
  /-- R30: a transfer is in flight; the gate is closed. -/
  inFlight : Bool
  /-- R31: the length of the buffer being transmitted, 0 .. TX_MAX. -/
  txLen : Nat
  /-- R32: the scheduler's reference time. -/
  schedRef : Time
  /-- R34: the ring, CAPACITY elements. -/
  ring : Memory
  /-- R34: the assembler's scratch buffer, MAX_LEN elements. -/
  asm : Memory
  /-- R34: the pending command's text, TX_MAX elements. -/
  pendText : Memory
  /-- R34: the buffer being transmitted, TX_MAX elements. -/
  txBuf : Memory
  /-- R35: the transient state of a running `IDLE`; its presence is `idle_run` (log 12). -/
  drain : Option Drain
  /-- R44: the output log, oldest record first. -/
  out : List Record
  /-- R45, ghost: bytes stored since `RESET`. -/
  wTotal : Nat
  /-- R45, ghost: `wTotal` as the most recent completed `IDLE` sampled it. -/
  cTotal : Nat
  /-- The model's own: which family of free values unspecified elements read as (log 5). -/
  epoch : Nat
deriving DecidableEq, Repr

/-- What a step needs, in one value: the state of the block and, beside it, the arguments of the step
relation (R38: the parameters, the trace; log 1, log 3), the environment's side (R36) and the
diagnostic trace (R14). The host's `step` takes one argument, so they travel with the block; they are
no part of it, and `stepBlock` (Safety.lean) is the step with the parameters and the event as
arguments. -/
structure State extends Block where
  /-- Argument: the parameters of R7; no step changes them (R38; log 1). -/
  params : Config.Params
  /-- Argument: the bytes of the stimulus trace not yet applied (R38, R90; log 3). -/
  stream : List Byte
  /-- The environment's: its hidden `tx_owed` (R36); read by no rule (log 6). -/
  txOwed : Bool
  /-- The diagnostic trace of conditions, in the order raised (R14); read by no rule (log 7). -/
  diag : List Condition
deriving DecidableEq, Repr

/-- The reasons a step can fault: none. R230: the block never traps, halts, faults or enters an error
state, and a model's step function for it has no fault outcome (log 8). -/
inductive Fault
deriving DecidableEq, Repr

/-- The reasons a step can be refused. -/
inductive Refusal
  /-- An event the model gives no meaning, by its mnemonic: raised only by an arm of `exec` that is
  not modelled yet. There is none: every row of the table has its meaning. Safe. -/
  | notModelled (mnemonic : String)
deriving DecidableEq, Repr

/-- The state after `RESET` (R46) of a block with parameters `p`, with what `RESET` leaves alone given:
the trace still to come, the number of the reset, and the environment's `tx_owed`. -/
def State.initial (p : Config.Params) (stream : List Byte) (epoch : Nat) (txOwed : Bool) : State where
  params := p
  stream := stream
  armed := false
  remaining := p.capacity
  rxSeen := false
  consumed := 0
  cursor := 0
  msgLen := 0
  ready := false
  pendValid := false
  pendLen := 0
  pendTime := 0
  inFlight := false
  txLen := 0
  schedRef := 0
  ring := []
  asm := []
  pendText := []
  txBuf := []
  drain := none
  out := []
  wTotal := 0
  cTotal := 0
  txOwed := txOwed
  diag := []
  epoch := epoch

/-- The machine right after reset (R46), with the parameters of 95_test_vectors.md (log 1), no trace
presented yet (log 3), epoch 0 (log 5) and no completion owed (log 6). -/
def State.reset : State := State.initial Config.defaultParams [] 0 false

end Sys2Proof.Machine
end

