-- ==== Sys2Proof/Machine/Ops.lean ====
section
/-! DEFINITION. The named operations over the arrays, the output log and the diagnostic trace, and the
one way an event is accepted or rejected. -/

namespace Sys2Proof.Machine

/-! ## One array: `MemRead` and `MemWrite` of one byte (R13, R63) -/

/-- What is listed at index `i`; none for an element no operation has written (R34). -/
def Memory.get? : Memory → Nat → Option Byte
  | [], _ => none
  | (a, v) :: m, i => if i = a then some v else Memory.get? m i

/-- `a[i] <- b` (R13), keeping the indices strictly rising. -/
def Memory.write : Memory → Nat → Byte → Memory
  | [], i, b => [(i, b)]
  | (a, v) :: m, i, b =>
    if i < a then (i, b) :: (a, v) :: m
    else if i = a then (i, b) :: m
    else (a, v) :: Memory.write m i b

/-- `a[i ..] <- s` (R13): the bytes of `s` to consecutive elements, one byte access each (R63). -/
def Memory.writeBytes : Memory → Nat → List Byte → Memory
  | m, _, [] => m
  | m, i, b :: bs => Memory.writeBytes (m.write i b) (i + 1) bs

/-! ## The four arrays of the block (R34, R60) -/

/-- The contents of an array. -/
def State.array (s : State) : Config.ArrayName → Memory
  | .ring => s.ring
  | .asm => s.asm
  | .pendText => s.pendText
  | .txBuf => s.txBuf

/-- The number of elements of an array (R34). -/
def State.arraySize (s : State) : Config.ArrayName → Nat
  | .ring => s.params.capacity
  | .asm => s.params.maxLen
  | .pendText => s.params.txMax
  | .txBuf => s.params.txMax

/-- THE READ OF ONE BYTE, `a[i]` (R13, R66): what an operation has written there since reset, and a
free value for an element that holds none (R34, U2; log 4). Reading changes nothing. -/
def State.elem (s : State) (a : Config.ArrayName) (i : Nat) : Byte :=
  ((s.array a).get? i).getD (Config.unspecifiedByte a s.epoch i)

/-- `a[0 .. n - 1]` (R12). -/
def State.prefixBytes (s : State) (a : Config.ArrayName) (n : Nat) : List Byte :=
  (List.range n).map (s.elem a)

/-- `ring[i]`. The ring is circular and every ring index is the result of a `mod CAPACITY` (R61). -/
def State.ringAt (s : State) (i : Nat) : Byte := s.elem .ring (i % s.params.capacity)

/-! ## Records, conditions, acceptance -/

/-- `emit REC` (R14): append one record to the output log (R44). -/
def State.emit (r : Record) (s : State) : State := { s with out := s.out ++ [r] }

/-- `raise <Condition>` (R14, R230): a marker in the diagnostic trace, nothing else. It is what stands
where a processor takes an exception: no register, no mode and no handler exists (R230, R244). -/
def State.raise (c : Condition) (s : State) : State := { s with diag := s.diag ++ [c] }

/-- The whole effect of an invalid event (R99): the single record `REJECT`. -/
def State.reject (s : State) : State := s.emit .reject

/-- Validity is decided before any state is touched (R104): an event with a step in the present state
takes it, any other is rejected (R99 cases (c) and (e)). Either way the block goes on. -/
def State.accept (s : State) (enabled : Bool) (after : State) : Host.Outcome State Fault Refusal :=
  .next (if enabled then after else s.reject)

/-- `pos <- p` in a running drain (R147). -/
def State.setPos (p : Nat) (s : State) : State :=
  { s with drain := s.drain.map fun d => { d with pos := p } }

/-- The event at the head of the trace, and what is left of the trace (R90, R98). -/
def State.nextEvent (s : State) : Decoded := decodeEvent s.stream

/-- The state with the trace moved on to `rest`. -/
def State.withStream (s : State) (rest : List Byte) : State := { s with stream := rest }

end Sys2Proof.Machine
end

