-- ==== Sys2Proof/Machine/Operands.lean ====
section
/-! DEFINITION. The values operations compute from operands and registers: the write position, the
span and its sub-spans, the scheduler's time difference, and the legality of a send's data. -/

namespace Sys2Proof.Machine

/-- The write position, derived and never stored (R124): `(CAPACITY - remaining) mod CAPACITY`. -/
def State.writePos (s : State) : Nat := (s.params.capacity - s.remaining) % s.params.capacity

/-- The successor of a ring index (R61). -/
def State.nextIndex (s : State) (i : Nat) : Nat := (i + 1) % s.params.capacity

/-- `(to - from) mod CAPACITY` for ring indices (R126, R142). -/
def State.ringDistance (s : State) (start stop : Nat) : Nat :=
  (stop + s.params.capacity - start) % s.params.capacity

/-- The length of the unread region (R126). -/
def State.unreadLen (s : State) : Nat := s.ringDistance s.consumed s.writePos

/-- The span of a drain that samples the write position `wp` (R142): the ring indices from `consumed`
up to but not including `wp`, in arrival order. -/
def State.span (s : State) (wp : Nat) : List Nat :=
  (List.range (s.ringDistance s.consumed wp)).map fun t => (s.consumed + t) % s.params.capacity

/-- The wrap indication (R143): derived, not a register. -/
def State.wrap (s : State) (wp : Nat) : Bool := decide (wp < s.consumed)

/-- The first contiguous sub-span (R143): up to `wp`, or to the end of the ring when the span wraps. -/
def State.firstSubSpan (s : State) (wp : Nat) : List Nat :=
  if s.wrap wp then List.range' s.consumed (s.params.capacity - s.consumed)
  else List.range' s.consumed (wp - s.consumed)

/-- The second contiguous sub-span (R143): the indices from 0 when the span wraps, else none. -/
def State.secondSubSpan (s : State) (wp : Nat) : List Nat :=
  if s.wrap wp then List.range wp else []

/-- `now -_32 sched_ref` (R11, R207, R208). -/
def State.timeSinceRef (s : State) (now : Time) : Nat := (now - s.schedRef).toNat

/-- The legal data of a send: 1 .. TX_MAX bytes (R97, R99 case (c)). -/
def State.dataLegal (s : State) (data : List Byte) : Bool :=
  decide (1 ≤ data.length) && decide (data.length ≤ s.params.txMax)

end Sys2Proof.Machine
end

