-- ==== Sys2Proof/Machine/Flags.lean ====
section
/-! DEFINITION. The control flags (R33) and every condition on the state that an operation tests. The
block has no condition codes and no arithmetic flags. -/

namespace Sys2Proof.Machine

/-- The one-bit control flags, the complete list of R33. -/
inductive Flag
  | armed | rxSeen | ready | pendValid | inFlight | stop
deriving DecidableEq, Repr

/-- Write one flag (R33). `stop` exists only while a drain runs (R35). -/
def State.setFlag (f : Flag) (v : Bool) (s : State) : State :=
  match f with
  | .armed => { s with armed := v }
  | .rxSeen => { s with rxSeen := v }
  | .ready => { s with ready := v }
  | .pendValid => { s with pendValid := v }
  | .inFlight => { s with inFlight := v }
  | .stop => { s with drain := s.drain.map fun d => { d with stop := v } }

/-- `idle_run` (R35): an `IDLE` is in progress. -/
def State.idleRun (s : State) : Bool := s.drain.isSome

/-- The gate is open (R196). -/
def State.gateOpen (s : State) : Bool := !s.inFlight

/-- A genuine idle notification is due (R140 (a)): the flag only tells the environment (R24). -/
def State.idleDue (s : State) : Bool := s.rxSeen

/-- The next store overwrites a byte not yet delivered (R123, R232): `W_total - C_total ≥ CAPACITY`. -/
def State.overrunning (s : State) : Bool := decide (s.cTotal + s.params.capacity ≤ s.wTotal)

/-- Appending a byte would exceed the maximum length (R161): `cursor = MAX_LEN`. The test is `≥`, the
same for every value `cursor` can hold (R20; log 9). -/
def State.assemblerFull (s : State) : Bool := decide (s.params.maxLen ≤ s.cursor)

/-- The last two appended bytes are the terminator (R161, R162). -/
def State.terminated (s : State) : Bool :=
  decide (2 ≤ s.cursor) && decide (s.elem .asm (s.cursor - 2) = Config.cr)
    && decide (s.elem .asm (s.cursor - 1) = Config.lf)

/-- The interval has elapsed (R207, R208). -/
def State.elapsed (s : State) (now : Time) : Bool := decide (s.params.interval ≤ s.timeSinceRef now)

/-- The running drain has reached the sampled write position (R145: `pos = wp`), or none runs. -/
def State.drained (s : State) : Bool :=
  match s.drain with
  | none => true
  | some d => decide (d.pos = d.wp)

/-- `IDLE2` has a step: a drain runs and `pos ≠ wp` (R147). -/
def State.canDeliver (s : State) : Bool := s.idleRun && !s.drained

/-- `IDLE3` has a step: a drain runs and `pos = wp` (R149). -/
def State.canFinish (s : State) : Bool := s.idleRun && s.drained

/-- The rest of the span is to be skipped (R35, R147); false when no drain runs. -/
def State.stopped (s : State) : Bool :=
  match s.drain with
  | none => false
  | some d => d.stop

end Sys2Proof.Machine
end

