-- ==== Sys2Proof/Machine/Correlator.lean ====
section
/-! DEFINITION. The command correlator (43_command_correlator.md): `CORRELATE`, `STRIP`, `MATCH`. -/

namespace Sys2Proof.Machine

/-- `STRIP(p)` (R185): exactly one trailing terminator removed, nothing else. -/
def stripTerminator (p : List Byte) : List Byte :=
  if 2 ≤ p.length ∧ p[p.length - 2]? = some Config.cr ∧ p[p.length - 1]? = some Config.lf then
    p.take (p.length - 2)
  else p

/-- `needle` is a contiguous substring of `hay` (R184, CONTAINS). -/
def containsBytes : List Byte → List Byte → Bool
  | [], needle => needle.isEmpty
  | h :: hay, needle => needle.isPrefixOf (h :: hay) || containsBytes hay needle

/-- `MATCH(text, p)` under the two policies (R184): the message is the haystack. -/
def matchEcho (policy : Config.EchoPolicy) (text p : List Byte) : Bool :=
  match policy with
  | .exact => decide (text = p)
  | .contains => containsBytes text p

/-- The pending command as sent, `pend_text[0 .. pend_len - 1]` (R29). `pend_len` is at most TX_MAX
(R20); the bound is written so that no index outside the array is formed (R62; log 9). -/
def State.pendCommand (s : State) : List Byte :=
  s.prefixBytes .pendText (min s.pendLen s.params.txMax)

/-- Whether a completed message is an echo of the pending command (R181). -/
def State.isEcho (s : State) (text : List Byte) : Bool :=
  s.pendValid && matchEcho s.params.echoPolicy text (stripTerminator s.pendCommand)

/-- `CORRELATE(text)` (R181): an echo is discarded and clears the record (R182), any other message is
forwarded (R183). -/
def State.correlate (text : List Byte) (s : State) : State :=
  if s.isEcho text then s.setFlag .pendValid false else s.emit (.msg text)

end Sys2Proof.Machine
end

