-- ==== Sys2Proof/Machine/Decoder.lean ====
section
/-! DEFINITION. The line decoder and message reassembler (42_line_decoder.md): the micro-operations
`INGEST`, `COMPLETE`, `OVERFLOW`. -/

namespace Sys2Proof.Machine

/-- `asm[cursor] <- b; cursor <- cursor + 1` (R161). -/
def State.appendByte (b : Byte) (s : State) : State :=
  { s with asm := s.asm.write s.cursor b, cursor := s.cursor + 1 }

/-- Parts (a) to (c) of `COMPLETE` (R163): both terminations, and the ready mark. -/
def State.cutMessage (s : State) : State :=
  ({ s with msgLen := s.cursor - 2, asm := s.asm.write (s.cursor - 2) 0x00 } : State).setFlag .ready true

/-- The text handed to `CORRELATE`, `asm[0 .. msg_len - 1]` (R163): delimited by the length, a copy. -/
def State.messageText (s : State) : List Byte := s.prefixBytes .asm s.msgLen

/-- Part (d) of `COMPLETE` (R163, R165): under DROP_REST the rest of the span is to be skipped. -/
def State.applyScanPolicy (s : State) : State :=
  match s.params.scanPolicy with
  | .dropRest => s.setFlag .stop true
  | .continueScan => s

/-- `COMPLETE` (R163): a terminator has just been appended; the message is handed on at once. -/
def State.complete (s : State) : State :=
  let t := ((s.cutMessage.correlate s.cutMessage.messageText).setFlag .ready false).applyScanPolicy
  { t with cursor := 0 }

/-- `OVERFLOW` (R164): the assembler is full and another byte arrives, which is discarded too. -/
def State.overflow (s : State) : State :=
  ({ s.raise .oversize with
      asm := s.asm.writeBytes 0 (List.replicate s.params.maxLen 0x00)
      cursor := 0 } : State).setFlag .ready false

/-- `INGEST(b)` (R161): the terminator test comes before any later length test. -/
def State.ingest (b : Byte) (s : State) : State :=
  if s.assemblerFull then s.overflow
  else if (s.appendByte b).terminated then (s.appendByte b).complete
  else s.appendByte b

end Sys2Proof.Machine
end

