-- ==== Sys2Proof/Machine/Frame.lean ====
section
/-! DEFINITION. The frame boundary detector (41_frame_boundary.md): `IDLE` and its micro-steps. -/

namespace Sys2Proof.Machine

/-- Micro-step 1 (R146): sample the write position once, and set up. -/
def State.beginDrain (s : State) : State :=
  ({ s with drain := some { wp := s.writePos, pos := s.consumed, stop := false, ws := s.wTotal } } :
    State).setFlag .rxSeen false

/-- What is done with one byte of the span (R147): given to `INGEST`, or skipped after a terminator
under DROP_REST (R152). -/
def State.deliver (b : Byte) (s : State) : State := if s.stopped then s else s.ingest b

/-- Micro-step 2 (R147) of a running drain at ring index `pos`: deliver or skip one byte, then move on
across the wrap boundary if need be. -/
def State.deliverNext (s : State) : State :=
  match s.drain with
  | none => s
  | some d => (s.deliver (s.ringAt d.pos)).setPos (s.nextIndex d.pos)

/-- Micro-step 3 (R149): advance the read cursor to the position sampled at micro-step 1. -/
def State.endDrain (s : State) : State :=
  match s.drain with
  | none => s
  | some d => { s with consumed := d.wp, cTotal := d.ws, drain := none }

/-- `while pos ≠ wp: call IDLE2` (R145), at most `fuel` times. CAPACITY is enough (R151; log 18). -/
def State.drainLoop : Nat → State → State
  | 0, s => s
  | fuel + 1, s => if s.drained then s else State.drainLoop fuel s.deliverNext

/-- The body of `IDLE` (R145): the three kinds of micro-step with nothing between them. -/
def State.drainSpan (s : State) : State :=
  (State.drainLoop s.params.capacity s.beginDrain).endDrain

/-- `IDLE` (R145): accepted whether or not `rx_seen = 1` (R141). -/
def execIdle (s : State) : Host.Outcome State Fault Refusal := s.accept (!s.idleRun) s.drainSpan

/-- `IDLE1` (R146). -/
def execIdle1 (s : State) : Host.Outcome State Fault Refusal := s.accept (!s.idleRun) s.beginDrain

/-- `IDLE2` (R147). -/
def execIdle2 (s : State) : Host.Outcome State Fault Refusal := s.accept s.canDeliver s.deliverNext

/-- `IDLE3` (R149). -/
def execIdle3 (s : State) : Host.Outcome State Fault Refusal := s.accept s.canFinish s.endDrain

end Sys2Proof.Machine
end

