-- ==== Sys2Proof/Machine/Gate.lean ====
section
/-! DEFINITION. The transmit gate and the scheduler (44_transmit_gate.md): `SENDD`, `SENDC`, `TXDONE`,
`POLL`, and the micro-operations `SEND` and `BEGIN`. -/

namespace Sys2Proof.Machine

/-- The PendingCommand record is overwritten (R198): a command send that starts. -/
def State.recordPending (now : Time) (data : List Byte) (s : State) : State :=
  ({ s with
      pendText := s.pendText.writeBytes 0 data
      pendLen := data.length
      pendTime := now } : State).setFlag .pendValid true

/-- The part of `BEGIN` every started send shares (R198): close the gate, copy the data, take the
reference time, start the outbound engine. The engine now owes a completion (R36). -/
def State.startTransfer (now : Time) (data : List Byte) (s : State) : State :=
  (({ s with
      txBuf := s.txBuf.writeBytes 0 data
      txLen := data.length
      schedRef := now
      txOwed := true } : State).setFlag .inFlight true).emit (.txstart data)

/-- The state after `BEGIN(cmd, br, now, data)` (R198). An engine that answers busy or error leaves
everything unchanged (U6). -/
def State.begun (cmd : Bool) (br : Br) (now : Time) (data : List Byte) (s : State) : State :=
  match br with
  | .ok => (if cmd then s.recordPending now data else s).startTransfer now data
  | .busy => s
  | .error => s

/-- The result of `BEGIN` (R198). -/
def beginResult : Br → ResCode
  | .ok => .ok
  | .busy => .busy
  | .error => .busy

/-- `SEND(cmd, br, now, data)` (R197): the test of the gate and its closing are one step (R77). -/
def State.send (cmd : Bool) (br : Br) (now : Time) (data : List Byte) (s : State) : State :=
  if s.inFlight then (s.raise .busy).emit (.res .busy)
  else (s.begun cmd br now data).emit (.res (beginResult br))

/-- The keep-alive of an elapsed period (R207, R210): a command send of KA_TEXT through an open gate,
its result ignored; a closed gate skips it. -/
def State.keepAlive (br : Br) (now : Time) (s : State) : State :=
  if s.inFlight then s else s.begun true br now s.params.kaText

/-- The body of `POLL` (R207): a period that has elapsed is used up whether the keep-alive was sent,
skipped or refused (R209, R210). -/
def State.schedulerTick (br : Br) (now : Time) (s : State) : State :=
  if s.elapsed now then { s.keepAlive br now with schedRef := now } else s

/-- The body of `TXDONE` (R204). With it the environment has discharged the completion (R36). -/
def State.completeTransfer (s : State) : State :=
  ({ s with txOwed := false } : State).setFlag .inFlight false

/-- `SENDD` (R200). -/
def execSendd (br : Br) (now : Time) (data : List Byte) (s : State) :
    Host.Outcome State Fault Refusal :=
  s.accept (s.dataLegal data && !s.idleRun) (s.send false br now data)

/-- `SENDC` (R201). -/
def execSendc (br : Br) (now : Time) (data : List Byte) (s : State) :
    Host.Outcome State Fault Refusal :=
  s.accept (s.dataLegal data && !s.idleRun) (s.send true br now data)

/-- `TXDONE` (R204, R205). -/
def execTxdone (s : State) : Host.Outcome State Fault Refusal :=
  s.accept (!s.idleRun) s.completeTransfer

/-- `POLL` (R207). -/
def execPoll (br : Br) (now : Time) (s : State) : Host.Outcome State Fault Refusal :=
  s.accept (!s.idleRun) (s.schedulerTick br now)

end Sys2Proof.Machine
end

