-- ==== Sys2Proof/Machine/Reset.lean ====
section
/-! DEFINITION. `RESET` (70_reset_and_hazards.md R270). -/

namespace Sys2Proof.Machine

/-- The body of `RESET` (R270, R46): every register to its reset value, every array element
unspecified anew (a new epoch of free values, log 5), the output log emptied, a running drain
abandoned. What is not the block's stays: the parameters, the rest of the trace, and the outbound
engine's transfer, which is not recalled (`tx_owed`, R36; log 6). -/
def State.restart (s : State) : State :=
  { params := s.params
    stream := s.stream
    armed := false
    remaining := s.params.capacity
    rxSeen := false
    consumed := 0
    cursor := 0
    msgLen := 0
    ready := false
    pendValid := false
    pendLen := 0
    pendTime := 0
    inFlight := false
    txLen := 0
    schedRef := 0
    ring := []
    asm := []
    pendText := []
    txBuf := []
    drain := none
    out := []
    wTotal := 0
    cTotal := 0
    txOwed := s.txOwed
    diag := []
    epoch := s.epoch + 1 }

/-- `RESET` (R270): enabled always, also while a drain runs (R72). -/
def execReset (s : State) : Host.Outcome State Fault Refusal := .next s.restart

end Sys2Proof.Machine
end

