-- ==== Sys2Proof/Machine/Ring.lean ====
section
/-! DEFINITION. The receive ring buffer (40_ring_buffer.md): `START` and `RXBYTE`. -/

namespace Sys2Proof.Machine

/-- The body of `START` (R122). -/
def State.armReceiver (s : State) : State :=
  ({ s with remaining := s.params.capacity } : State).setFlag .armed true

/-- The remaining count after one more byte (R123): count down, or reload at the end of a pass. -/
def State.countDown (s : State) : Nat :=
  if s.remaining = 1 then s.params.capacity else s.remaining - 1

/-- `raise Overrun` where `RXBYTE` overwrites an unread byte (R123, R232). -/
def State.noteOverrun (s : State) : State := if s.overrunning then s.raise .overrun else s

/-- The body of `RXBYTE b` in an armed block (R123, R75): one atomic step. -/
def State.storeByte (b : Byte) (s : State) : State :=
  { s.noteOverrun with
    ring := s.ring.write s.writePos b
    remaining := s.countDown
    rxSeen := true
    wTotal := s.wTotal + 1 }

/-- `START` (R122): refused while armed or while a drain runs (R99 case (e)). -/
def execStart (s : State) : Host.Outcome State Fault Refusal :=
  s.accept (!s.armed && !s.idleRun) s.armReceiver

/-- `RXBYTE b` (R123): enabled always; with `armed = 0` the byte is lost and nothing changes. -/
def execRxbyte (b : Byte) (s : State) : Host.Outcome State Fault Refusal :=
  .next (if s.armed then s.storeByte b else s)

end Sys2Proof.Machine
end

