-- ==== Sys2Proof/Machine/Dispatch.lean ====
section
/-! DEFINITION. The meaning of each event, one arm for each row of opcode_table.json. -/

namespace Sys2Proof.Machine

/-- What an event does to the block (R9, R92). -/
def exec (i : Instr) (s : State) : Host.Outcome State Fault Refusal :=
  match i with
  | .reset => Sys2Proof.Machine.execReset s
  | .start => Sys2Proof.Machine.execStart s
  | .rxbyte b => Sys2Proof.Machine.execRxbyte b s
  | .idle => Sys2Proof.Machine.execIdle s
  | .txdone => Sys2Proof.Machine.execTxdone s
  | .idle1 => Sys2Proof.Machine.execIdle1 s
  | .idle2 => Sys2Proof.Machine.execIdle2 s
  | .idle3 => Sys2Proof.Machine.execIdle3 s
  | .sendd br now data => Sys2Proof.Machine.execSendd br now data s
  | .sendc br now data => Sys2Proof.Machine.execSendc br now data s
  | .poll br now => Sys2Proof.Machine.execPoll br now s

end Sys2Proof.Machine
end

