-- ==== Sys2Proof/Machine/Step.lean ====
section
/-! DEFINITION. One step: the next event of the stimulus trace is decoded and applied (R90). -/

namespace Sys2Proof.Machine

/-- One step of the block under its trace (R90, R98, R99). The event's bytes are taken from the trace
whatever the verdict; an event the decoder refuses emits `REJECT` and changes nothing else; with no
event left nothing happens (R274; log 11). -/
def step (s : State) : Host.Outcome State Fault Refusal :=
  match s.nextEvent with
  | .ended => .next s
  | .event i rest => exec i (s.withStream rest)
  | .invalid _ rest => .next (s.withStream rest).reject

/-- `s` with a numbered table word at the head of the trace, over what stood there: the very next step
decodes and applies it. It stands for the environment presenting the event (R90; log 3). -/
def State.withFetchWord (s : State) (nbits w : Nat) : State :=
  { s with stream := wordBytes nbits w ++ s.stream.drop (wordBytes nbits w).length }

end Sys2Proof.Machine
end

