-- ==== Sys2Proof/Machine/Output.lean ====
section
/-! DEFINITION. The output records as bytes (R100), and when a record is one the block can emit. -/

namespace Sys2Proof.Machine

/-- The code byte of a send's result (R100). -/
def ResCode.byte : ResCode → Byte
  | .ok => 0x00
  | .busy => 0x01

/-- The bytes of one output record (R100). -/
def encodeRecord : Record → List Byte
  | .msg text => 0x80 :: BitVec.ofNat 8 text.length :: text
  | .txstart data => 0x90 :: BitVec.ofNat 8 data.length :: data
  | .res code => [0xA0, code.byte]
  | .reject => [0xFF]

/-- The output stream: the records' encodings in emission order (R100). -/
def State.outBytes (s : State) : List Byte := s.out.flatMap encodeRecord

/-- The lengths R100 allows a record: 0 .. MAX_LEN - 2 for a message, 1 .. TX_MAX for a transfer. -/
def Record.wellFormed (p : Config.Params) : Record → Bool
  | .msg text => decide (text.length + 2 ≤ p.maxLen)
  | .txstart data => decide (1 ≤ data.length) && decide (data.length ≤ p.txMax)
  | .res _ => true
  | .reject => true

/-- Whether a record is the start of a transfer, `TXSTART` (R42). -/
def Record.isTxstart : Record → Bool
  | .msg _ => false
  | .txstart _ => true
  | .res _ => false
  | .reject => false

/-- How many transfers the output log shows started (R42). -/
def State.txstarts (s : State) : Nat := s.out.countP Record.isTxstart

end Sys2Proof.Machine
end

