-- ==== Sys2Proof/Machine/TraceText.lean ====
section
/-! DEFINITION. The textual form of a trace (R105) with its pseudo-operations (R106): a total parser from
a line's characters. R105 leaves the blanks between operands, the case of hexadecimal digits and the
range of a number open: log 16. -/

namespace Sys2Proof.Machine

/-- A line of the textual form: an event, a pseudo-operation of R106, or nothing (blank or comment). -/
inductive TraceLine
  | event (i : Instr)
  | rx (s : List Byte)
  | rxi (s : List Byte)
  | trysend (now : Time) (s : List Byte)
  | drain
  | blank
deriving DecidableEq, Repr

/-- The events a line stands for (R106). `DRAIN` repeats `IDLE2` while `pos ≠ wp`: once for each index of
the span its own `IDLE1` samples. DESIGN CHOICE (log 19): while a drain is already running R106's two
wordings of `DRAIN` disagree, and the model takes the length of the span the block would sample now,
not what is left of the running drain. -/
def TraceLine.events (s : State) : TraceLine → List Instr
  | .event i => [i]
  | .rx t => Instr.rx t
  | .rxi t => Instr.rxi t
  | .trysend now t => [Instr.trysend now t]
  | .drain => Instr.drain s.unreadLen
  | .blank => []

/-- The value of a hexadecimal digit, of either case. -/
def hexValue (c : Char) : Option Nat :=
  if '0' ≤ c ∧ c ≤ '9' then some (c.toNat - '0'.toNat)
  else if 'a' ≤ c ∧ c ≤ 'f' then some (c.toNat - 'a'.toNat + 10)
  else if 'A' ≤ c ∧ c ≤ 'F' then some (c.toNat - 'A'.toNat + 10)
  else none

/-- The value of a decimal digit. -/
def decValue (c : Char) : Option Nat :=
  if '0' ≤ c ∧ c ≤ '9' then some (c.toNat - '0'.toNat) else none

/-- The digits at the head of a text, folded into `acc` in the given base, and what follows them. -/
def digits (value : Char → Option Nat) (base : Nat) : Nat → List Char → Nat × List Char
  | acc, [] => (acc, [])
  | acc, c :: cs =>
    match value c with
    | some d => digits value base (acc * base + d) cs
    | none => (acc, c :: cs)

/-- A number, decimal or `0x` hexadecimal (R105), of at least one digit. -/
def parseNumber : List Char → Option (Nat × List Char)
  | '0' :: 'x' :: c :: cs => (hexValue c).map fun d => digits hexValue 16 d cs
  | c :: cs => (decValue c).map fun d => digits decValue 10 d cs
  | [] => none

/-- The blanks at the head of a text dropped. -/
def skipBlanks : List Char → List Char
  | [] => []
  | c :: cs => if c = ' ' ∨ c = '\t' then skipBlanks cs else c :: cs

/-- Nothing is left on the line but blanks and a comment (R105). -/
def atLineEnd (cs : List Char) : Bool :=
  match skipBlanks cs with
  | [] => true
  | c :: _ => decide (c = ';')

/-- The rest of a quoted string after its opening quote (R12, R105): `\r`, `\n`, `\\`, `\"` and `\xHH`
are the only escapes; any other character stands for its ASCII code (G1). -/
def parseString : List Char → Option (List Byte × List Char)
  | [] => none
  | '"' :: cs => some ([], cs)
  | '\\' :: 'r' :: cs => (parseString cs).map fun r => (0x0D :: r.1, r.2)
  | '\\' :: 'n' :: cs => (parseString cs).map fun r => (0x0A :: r.1, r.2)
  | '\\' :: '\\' :: cs => (parseString cs).map fun r => (0x5C :: r.1, r.2)
  | '\\' :: '"' :: cs => (parseString cs).map fun r => (0x22 :: r.1, r.2)
  | '\\' :: 'x' :: h :: l :: cs =>
    match hexValue h, hexValue l with
    | some a, some b => (parseString cs).map fun r => (BitVec.ofNat 8 (a * 16 + b) :: r.1, r.2)
    | _, _ => none
  | '\\' :: _ => none
  | c :: cs =>
    if c.toNat < 128 then (parseString cs).map fun r => (BitVec.ofNat 8 c.toNat :: r.1, r.2)
    else none

/-- A quoted string operand that ends its line. -/
def stringOperand (cs : List Char) : Option (List Byte) :=
  match skipBlanks cs with
  | '"' :: t =>
    match parseString t with
    | some (s, rest) => if atLineEnd rest then some s else none
    | none => none
  | _ => none

/-- The operand `b` of `RXBYTE`, a byte. -/
def byteOperand (cs : List Char) : Option Byte :=
  match parseNumber (skipBlanks cs) with
  | some (n, rest) => if n < 256 ∧ atLineEnd rest then some (BitVec.ofNat 8 n) else none
  | none => none

/-- The operand `now=<number>`, 32 bits, and what follows it. -/
def nowOperand (cs : List Char) : Option (Time × List Char) :=
  match skipBlanks cs with
  | 'n' :: 'o' :: 'w' :: '=' :: t =>
    match parseNumber t with
    | some (n, rest) => if n < 2 ^ 32 then some (BitVec.ofNat 32 n, rest) else none
    | none => none
  | _ => none

/-- The operand `br=ok|busy|error`; left out it means ok (R105). -/
def brOperand (cs : List Char) : Br × List Char :=
  match skipBlanks cs with
  | 'b' :: 'r' :: '=' :: 'o' :: 'k' :: t => (.ok, t)
  | 'b' :: 'r' :: '=' :: 'b' :: 'u' :: 's' :: 'y' :: t => (.busy, t)
  | 'b' :: 'r' :: '=' :: 'e' :: 'r' :: 'r' :: 'o' :: 'r' :: t => (.error, t)
  | t => (.ok, t)

/-- The operands of a send: `now=`, an optional `br=`, the string. -/
def sendOperands (cs : List Char) : Option (Br × Time × List Byte) :=
  match nowOperand cs with
  | some (now, t) => (stringOperand (brOperand t).2).map fun s => ((brOperand t).1, now, s)
  | none => none

/-- The operands of `POLL`. -/
def pollOperands (cs : List Char) : Option (Br × Time) :=
  match nowOperand cs with
  | some (now, t) => if atLineEnd (brOperand t).2 then some ((brOperand t).1, now) else none
  | none => none

/-- The operands of `TRYSEND` (R106): `now=` and the string. -/
def trysendOperands (cs : List Char) : Option (Time × List Byte) :=
  match nowOperand cs with
  | some (now, t) => (stringOperand t).map fun s => (now, s)
  | none => none

/-- Characters up to the first blank or comment, and the rest of the line. -/
def splitWord : List Char → List Char × List Char
  | [] => ([], [])
  | c :: cs =>
    if c = ' ' ∨ c = '\t' ∨ c = ';' then ([], c :: cs)
    else (c :: (splitWord cs).1, (splitWord cs).2)

/-- An event without operands. -/
def bareEvent (i : Instr) (rest : List Char) : Option TraceLine :=
  if atLineEnd rest then some (.event i) else none

/-- The line a mnemonic and the text after it make. -/
def parseOperation (word rest : List Char) : Option TraceLine :=
  if word = ['R', 'E', 'S', 'E', 'T'] then bareEvent .reset rest
  else if word = ['S', 'T', 'A', 'R', 'T'] then bareEvent .start rest
  else if word = ['R', 'X', 'B', 'Y', 'T', 'E'] then (byteOperand rest).map fun b => .event (.rxbyte b)
  else if word = ['I', 'D', 'L', 'E'] then bareEvent .idle rest
  else if word = ['I', 'D', 'L', 'E', '1'] then bareEvent .idle1 rest
  else if word = ['I', 'D', 'L', 'E', '2'] then bareEvent .idle2 rest
  else if word = ['I', 'D', 'L', 'E', '3'] then bareEvent .idle3 rest
  else if word = ['T', 'X', 'D', 'O', 'N', 'E'] then bareEvent .txdone rest
  else if word = ['S', 'E', 'N', 'D', 'D'] then
    (sendOperands rest).map fun o => .event (.sendd o.1 o.2.1 o.2.2)
  else if word = ['S', 'E', 'N', 'D', 'C'] then
    (sendOperands rest).map fun o => .event (.sendc o.1 o.2.1 o.2.2)
  else if word = ['P', 'O', 'L', 'L'] then (pollOperands rest).map fun o => .event (.poll o.1 o.2)
  else if word = ['R', 'X'] then (stringOperand rest).map .rx
  else if word = ['R', 'X', 'I'] then (stringOperand rest).map .rxi
  else if word = ['T', 'R', 'Y', 'S', 'E', 'N', 'D'] then
    (trysendOperands rest).map fun o => .trysend o.1 o.2
  else if word = ['D', 'R', 'A', 'I', 'N'] then if atLineEnd rest then some .drain else none
  else none

/-- One line of the textual form (R105, R106); none for a line that is neither. -/
def parseLine (line : List Char) : Option TraceLine :=
  if atLineEnd line then some .blank
  else parseOperation (splitWord (skipBlanks line)).1 (splitWord (skipBlanks line)).2

end Sys2Proof.Machine
end

