-- ==== Sys2Proof/Safety.lean ====
section
/-! DEFINITION. Runs, reachable states, the invariants of R40 to R42 and R45, the ownership table, and
the environment premises of R284 as predicates on traces. -/

namespace Sys2Proof.Machine

/-! ## Runs -/

/-- A trace of events applied one after another (R90), stopping at a fault or a refusal. -/
def runEvents : List Instr → State → Host.Outcome State Fault Refusal
  | [], s => .next s
  | i :: trace, s =>
    match exec i s with
    | .next t => runEvents trace t
    | .fault f => .fault f
    | .refused r => .refused r

/-- A block with the arguments of one step beside it: its parameters, and nothing else to say. -/
def State.ofBlock (p : Config.Params) (b : Block) : State :=
  { b with params := p, stream := [], txOwed := false, diag := [] }

/-- THE STEP RELATION OF THE BLOCK (R38): a function of the parameters, the event with its operands, and
the block's state. The trace and the order of the agents are in no one's state: they are which events
this is applied to. -/
def stepBlock (p : Config.Params) (i : Instr) (b : Block) : Block :=
  match exec i (State.ofBlock p b) with
  | .next t => t.toBlock
  | .fault _ => b
  | .refused _ => b

/-- The states a block can be in: what a `RESET` leaves, whatever came before and whatever trace comes
next, and what steps lead to from there (R40: "every state reachable from RESET"). -/
inductive Reachable : State → Prop
  | afterReset {s t : State} : exec .reset s = .next t → Reachable t
  | afterStep {s t : State} : Reachable s → step s = .next t → Reachable t

/-- The run is complete: the trace has ended and no drain is left half done (R274). -/
def State.runComplete (s : State) : Bool := s.stream.isEmpty && !s.idleRun

/-! ## Invariants -/

/-- Element `i` of an array has been written since reset. -/
def State.written (s : State) (a : Config.ArrayName) (i : Nat) : Prop :=
  ((s.array a).get? i).isSome = true

/-- The running drain stands inside its span, and its samples are those of micro-step 1 (R35, R145):
`pos` is at most as far from `wp` as `consumed` is. -/
structure DrainInv (s : State) (d : Drain) : Prop where
  pos_lt : d.pos < s.params.capacity
  wp_eq : d.wp = d.ws % s.params.capacity
  sampled_ge : s.cTotal ≤ d.ws
  sampled_le : d.ws ≤ s.wTotal
  pos_in_span : s.ringDistance d.pos d.wp ≤ s.ringDistance s.consumed d.wp
  quiet : s.rxSeen = false → s.wTotal = d.ws

/-- The invariants of the block, at every boundary between events and between the micro-steps of
`IDLE`: (I1) to (I9) of R40, the ghost equations of R45, what R41 rests on, R141's reading of
`rx_seen`, R36's of `tx_owed`, the canonical form and the bounds of the arrays (R34, R62), and R100's
lengths of the records. -/
structure Inv (s : State) : Prop where
  /-- (I1) -/
  remaining_pos : 1 ≤ s.remaining
  /-- (I1) -/
  remaining_le : s.remaining ≤ s.params.capacity
  /-- (I2) -/
  consumed_lt : s.consumed < s.params.capacity
  /-- (I3) -/
  cursor_le : s.cursor ≤ s.params.maxLen
  /-- (I4) -/
  msgLen_le : s.msgLen ≤ s.params.maxLen - 2
  /-- (I5) -/
  ready_clear : s.ready = false
  /-- R20: the range of `pend_len`. -/
  pendLen_le : s.pendLen ≤ s.params.txMax
  /-- (I6) -/
  pendLen_pos : s.pendValid = true → 1 ≤ s.pendLen
  /-- R20: the range of `tx_len`. -/
  txLen_le : s.txLen ≤ s.params.txMax
  /-- (I7) -/
  txLen_pos : s.inFlight = true → 1 ≤ s.txLen
  /-- (I8) -/
  no_terminator : ∀ i, 1 ≤ i → i < s.cursor →
    ¬(s.elem .asm (i - 1) = Config.cr ∧ s.elem .asm i = Config.lf)
  /-- (I9) -/
  unarmed : s.armed = false →
    s.remaining = s.params.capacity ∧ s.consumed = 0 ∧ s.rxSeen = false ∧ s.wTotal = 0
  /-- R45: `write_pos = W_total mod CAPACITY`. -/
  writePos_eq : s.writePos = s.wTotal % s.params.capacity
  /-- R45: `consumed = C_total mod CAPACITY`. -/
  consumed_eq : s.consumed = s.cTotal % s.params.capacity
  /-- R45: `consumed` never passes `written`. -/
  cTotal_le : s.cTotal ≤ s.wTotal
  /-- R35; the transient record is the model's form of it (log 12). -/
  drain_ok : ∀ d, s.drain = some d → DrainInv s d
  /-- R24, R141: with `rx_seen = 0` and no drain running, nothing is unread. -/
  quiet : s.rxSeen = false → s.drain = none → s.wTotal = s.cTotal
  /-- R36: a closed gate means the environment owes a completion; `tx_owed` is kept by the model's
  choice (log 6). -/
  owed : s.inFlight = true → s.txOwed = true
  /-- The canonical form of every array, the model's own (log 17). -/
  arrays_wf : ∀ a, (s.array a).wf = true
  /-- R62: no element outside an array is ever written. -/
  arrays_bounded : ∀ a i, s.written a i → i < s.arraySize a
  /-- R41, R148: every ring index the producer has stored at holds a value. -/
  ring_written : ∀ i, i < s.params.capacity → i < s.wTotal → s.written .ring i
  /-- R41 -/
  asm_written : ∀ i, i < s.cursor → s.written .asm i
  /-- R41 -/
  pend_written : s.pendValid = true → ∀ i, i < s.pendLen → s.written .pendText i
  /-- R41 -/
  tx_written : s.inFlight = true → ∀ i, i < s.txLen → s.written .txBuf i
  /-- R100 -/
  out_wf : ∀ r ∈ s.out, r.wellFormed s.params = true

/-! ## Ownership (R20, R21, R250)

What the events of one agent may change. -/

/-- The registers and arrays agent P writes: `ring`, `remaining`, `rx_seen` (it only sets it; and the ghost
`W_total`, the diagnostic trace). Everything else is as before. -/
structure OnlyProducerState (s t : State) : Prop where
  params : t.params = s.params
  stream : t.stream = s.stream
  armed : t.armed = s.armed
  consumed : t.consumed = s.consumed
  cursor : t.cursor = s.cursor
  msgLen : t.msgLen = s.msgLen
  ready : t.ready = s.ready
  pendValid : t.pendValid = s.pendValid
  pendLen : t.pendLen = s.pendLen
  pendTime : t.pendTime = s.pendTime
  inFlight : t.inFlight = s.inFlight
  txLen : t.txLen = s.txLen
  schedRef : t.schedRef = s.schedRef
  rxSeen : s.rxSeen = true → t.rxSeen = true
  asm : t.asm = s.asm
  pendText : t.pendText = s.pendText
  txBuf : t.txBuf = s.txBuf
  drain : t.drain = s.drain
  out : t.out = s.out
  cTotal : t.cTotal = s.cTotal
  txOwed : t.txOwed = s.txOwed
  epoch : t.epoch = s.epoch

/-- Agent I writes `consumed`, `rx_seen` (clears), `asm`, `cursor`, `msg_len`, `ready`, `pend_valid`
(clears), `in_flight` (clears), the transient state, the log and the ghost `C_total`. -/
structure OnlyInterruptState (s t : State) : Prop where
  params : t.params = s.params
  stream : t.stream = s.stream
  armed : t.armed = s.armed
  remaining : t.remaining = s.remaining
  rxSeen : t.rxSeen = true → s.rxSeen = true
  pendValid : t.pendValid = true → s.pendValid = true
  pendLen : t.pendLen = s.pendLen
  pendTime : t.pendTime = s.pendTime
  inFlight : t.inFlight = true → s.inFlight = true
  txLen : t.txLen = s.txLen
  schedRef : t.schedRef = s.schedRef
  ring : t.ring = s.ring
  pendText : t.pendText = s.pendText
  txBuf : t.txBuf = s.txBuf
  wTotal : t.wTotal = s.wTotal
  epoch : t.epoch = s.epoch

/-- Agent M writes `armed`, `remaining` (`START` only), the pending record, `in_flight` (sets),
`tx_buf`, `tx_len`, `sched_ref`, the log and the diagnostic trace. -/
structure OnlyMainLoopState (s t : State) : Prop where
  params : t.params = s.params
  stream : t.stream = s.stream
  rxSeen : t.rxSeen = s.rxSeen
  consumed : t.consumed = s.consumed
  cursor : t.cursor = s.cursor
  msgLen : t.msgLen = s.msgLen
  ready : t.ready = s.ready
  pendValid : s.pendValid = true → t.pendValid = true
  inFlight : s.inFlight = true → t.inFlight = true
  ring : t.ring = s.ring
  asm : t.asm = s.asm
  drain : t.drain = s.drain
  wTotal : t.wTotal = s.wTotal
  cTotal : t.cTotal = s.cTotal
  epoch : t.epoch = s.epoch

/-! ## Views that forget what no rule reads -/

/-- The state without its diagnostic trace (R14: read by no rule). -/
def State.forgetDiag (s : State) : State := { s with diag := [] }

/-- The state with the ghosts of R45, and the diagnostic trace that depends on them, wiped. -/
def State.forgetGhosts (s : State) : State :=
  { s with wTotal := 0, cTotal := 0, diag := [],
           drain := s.drain.map fun d => { d with ws := 0 } }

/-- What an outcome leaves, through a view of states. -/
def mapOutcome (f : State → State) :
    Host.Outcome State Fault Refusal → Host.Outcome State Fault Refusal
  | .next s => .next (f s)
  | .fault r => .fault r
  | .refused r => .refused r

/-! ## Which events are accepted -/

/-- The event has a step in the present state (R99 case (e)), its operands aside. -/
def hasStep (s : State) : Instr → Bool
  | .reset => true
  | .start => !s.armed && !s.idleRun
  | .rxbyte _ => true
  | .idle => !s.idleRun
  | .txdone => !s.idleRun
  | .idle1 => !s.idleRun
  | .idle2 => s.canDeliver
  | .idle3 => s.canFinish
  | .sendd _ _ _ => !s.idleRun
  | .sendc _ _ _ => !s.idleRun
  | .poll _ _ => !s.idleRun

/-- The event is accepted: it has a step (R99 case (e)) and is well-formed (case (c)). It is the test by
which the meanings accept an event. -/
def enabled (s : State) (i : Instr) : Bool := hasStep s i && i.wellFormed s.params

/-! ## The environment premises of R284

(b) has a half that is a test of each event in the state it is raised in, as (c), (f), (g) and (h) are: the
premise holds of a trace when every event passes. The half that says that something comes, and (e), are
properties of infinite runs; (a) is a property of the trace and (d) of the trace and the environment's
clock. None is part of the step (R284). -/

/-- A test holds at every event of a trace. A run that stops has no later events. -/
def holdsAlong (test : State → Instr → Bool) : List Instr → State → Bool
  | [], _ => true
  | i :: trace, s =>
    test s i &&
      match exec i s with
      | .next t => holdsAlong test trace t
      | .fault _ => true
      | .refused _ => true

/-- (a) boot (R272): after `RESET` there is one `START` and no further `RESET`, and what stands before the
`START` is no traffic of interest. Which events are of interest is the property's to say. -/
def premiseBoot (ofInterest : Instr → Bool) : List Instr → Bool
  | .reset :: trace =>
    ((trace.takeWhile fun i => decide (i ≠ .start)).all fun i => !ofInterest i) &&
      decide (trace.countP (fun i => decide (i = .start)) = 1) &&
      trace.all fun i => decide (i ≠ .reset)
  | _ => false

/-- (b) completion, "never otherwise": `TXDONE` is raised only for a `TXSTART` record of the log whose
completion is still to come. The log begins anew with `RESET` (R44), so a completion that arrives after
one is for no record and breaks the premise (R270, R205; log 20): `in_flight` is 0 then, although the
environment owes it (R36). A `TXDONE` is taken after micro-step 3 of a running drain (R243). -/
def premiseCompletion (s : State) (i : Instr) : Bool :=
  !decide (i = .txdone) || (s.inFlight && s.txOwed && !s.idleRun)

/-- (b) completion, "exactly once for every `TXSTART` record, after it", of an infinite trace `ev` and the
states `st` it runs through: for every transfer in flight a completion comes, unless a `RESET` empties
the log of its record, and none comes otherwise. The `TXDONE` opens the gate, so that a second one would
not pass the test. -/
def premiseCompletionOnce (ev : Nat → Instr) (st : Nat → State) : Prop :=
  (∀ n, premiseCompletion (st n) (ev n) = true) ∧
    ∀ n, (st n).inFlight = true → ∃ m, n ≤ m ∧ (ev m = .txdone ∨ ev m = .reset)

/-- (b) completion, of a finite run from `s`: no `TXDONE` comes but for a record of the log, and at the end
of the trace every record has had its own. -/
def premiseCompletionAll (trace : List Instr) (s : State) : Bool :=
  holdsAlong premiseCompletion trace s &&
    match runEvents trace s with
    | .next t => !t.inFlight
    | .fault _ => true
    | .refused _ => true

/-- (c) engine availability: `br = ok` whenever `BEGIN` is called (R197, R207): by an accepted send
through an open gate, and by a `POLL` that finds the interval elapsed and the gate open. -/
def premiseEngineFree (s : State) (i : Instr) : Bool :=
  !enabled s i || s.inFlight ||
    match i with
    | .sendd br _ _ => decide (br = .ok)
    | .sendc br _ _ => decide (br = .ok)
    | .poll br now => !s.elapsed now || decide (br = .ok)
    | .reset | .start | .rxbyte _ | .idle | .txdone | .idle1 | .idle2 | .idle3 => true

/-- The time an event carries, if it carries one (R96). -/
def Instr.time? : Instr → Option Time
  | .sendd _ now _ => some now
  | .sendc _ now _ => some now
  | .poll _ now => some now
  | .reset | .start | .rxbyte _ | .idle | .txdone | .idle1 | .idle2 | .idle3 => none

/-- Whether an event is a `POLL`. -/
def Instr.isPoll : Instr → Bool
  | .poll _ _ => true
  | .reset | .start | .rxbyte _ | .idle | .txdone | .idle1 | .idle2 | .idle3 => false
  | .sendd _ _ _ | .sendc _ _ _ => false

/-- (d) time. `clock` is the environment's clock at each event that carries a time, as it is before it is
cut to 32 bits: whether a smaller reading is a wrap or a step backwards is the clock's to say, the
readings alone cannot. Each reading is the clock modulo 2^32, the clock never decreases (`last` is its
previous value), and each `POLL` comes less than 2^32 - INTERVAL after the one before it. The first
`POLL` comes that soon after the first reading (R208: "at least once in every 2^32 - INTERVAL units";
log 20). `ref` is the clock at the previous `POLL` or, before there is one, at the first reading. -/
def premiseTime (p : Config.Params) : Option Nat → Option Nat → List Nat → List Instr → Bool
  | _, _, _, [] => true
  | last, ref, clock, i :: trace =>
    match Instr.time? i, clock with
    | none, clock => premiseTime p last ref clock trace
    | some _, [] => false
    | some now, t :: clock =>
      decide (now = BitVec.ofNat 32 t) && decide (last.getD t ≤ t) &&
        (!Instr.isPoll i || decide (t - ref.getD t < 2 ^ 32 - p.interval)) &&
        premiseTime p (some t) (some (if Instr.isPoll i then t else ref.getD t)) clock trace

/-- (e) idle fairness, of an infinite trace `ev` and the states `st` it runs through: when `rx_seen = 1`
and no further byte comes, an `IDLE` or a micro-step 1 eventually comes and has its step. -/
def premiseIdleFair (ev : Nat → Instr) (st : Nat → State) : Prop :=
  ∀ n, (st n).idleDue = true → (∀ m, n ≤ m → ∀ b, ev m ≠ .rxbyte b) →
    ∃ m, n ≤ m ∧ (ev m = .idle ∨ ev m = .idle1) ∧ hasStep (st m) (ev m) = true

/-- (f) pace: fewer than CAPACITY bytes are unread at every micro-step 1 (R45, R280). -/
def premisePace (s : State) (i : Instr) : Bool :=
  (!decide (i = .idle) && !decide (i = .idle1)) || !hasStep s i ||
    decide (s.wTotal < s.cTotal + s.params.capacity)

/-- (g) short drain: no byte is stored at an index the running drain has yet to read (R74, R281). -/
def premiseShortDrain (s : State) (i : Instr) : Bool :=
  match s.drain with
  | none => true
  | some d =>
    !decide (i.agent = .P) || !s.armed
      || decide (s.ringDistance d.pos d.wp ≤ s.ringDistance d.pos s.writePos)

/-- (h) trace discipline: no event is presented that R99 case (e) refuses. -/
def premiseDiscipline (s : State) (i : Instr) : Bool := hasStep s i

end Sys2Proof.Machine
end

