-- ==== Sys2Proof/Certificates/Slice0/Obligations.lean ====
section
/-! DEFINITION. The statements about the block. Each docstring names the rule of spec/ it formalises; a
state that a statement gives in full says at once what changes and that nothing else does. Where a
stated rule leaves a field to the model (the diagnostic trace of R14, the environment's `tx_owed` of
R36), the statement leaves that field of the next state open; separate statements say what the model
does with it. -/

open Sys2Proof Sys2Proof.Machine

/-! ## Reset -/

/-- R46: the values of every register, array, flag and ghost after `RESET`, at `State.reset`. -/
def Obligations.ResetStateHoldsSpecValues : Prop :=
  State.reset.armed = false ∧ State.reset.remaining = State.reset.params.capacity ∧
  State.reset.rxSeen = false ∧ State.reset.consumed = 0 ∧ State.reset.cursor = 0 ∧
  State.reset.msgLen = 0 ∧ State.reset.ready = false ∧ State.reset.pendValid = false ∧
  State.reset.pendLen = 0 ∧ State.reset.pendTime = 0 ∧ State.reset.inFlight = false ∧
  State.reset.txLen = 0 ∧ State.reset.schedRef = 0 ∧ State.reset.drain = none ∧
  State.reset.out = [] ∧ State.reset.wTotal = 0 ∧ State.reset.cTotal = 0 ∧
  ∀ a i, ¬ State.reset.written a i

/-- R270: `RESET` completes in every state, a running drain included, and brings every register, flag,
array, the log and the ghosts to their reset values; the parameters and the trace are not its own. -/
def Obligations.ResetBringsInitialState : Prop :=
  ∀ s : State, ∃ t, exec .reset s = .next t ∧
    t.armed = false ∧ t.remaining = s.params.capacity ∧ t.rxSeen = false ∧ t.consumed = 0 ∧
    t.cursor = 0 ∧ t.msgLen = 0 ∧ t.ready = false ∧ t.pendValid = false ∧ t.pendLen = 0 ∧
    t.pendTime = 0 ∧ t.inFlight = false ∧ t.txLen = 0 ∧ t.schedRef = 0 ∧ t.drain = none ∧
    t.out = [] ∧ t.wTotal = 0 ∧ t.cTotal = 0 ∧ (∀ a i, ¬ t.written a i) ∧
    t.params = s.params ∧ t.stream = s.stream

/-- The model's reading of R270: the one state `RESET` leaves. The epoch of free values advances
(log 5), the environment's `tx_owed` stands (log 6) and the diagnostic trace is emptied (log 7). -/
def Obligations.ResetStartsFreshEpoch : Prop :=
  ∀ s : State, exec .reset s = .next (State.initial s.params s.stream (s.epoch + 1) s.txOwed)

/-! ## The receive ring buffer -/

/-- R122: `START` arms an unarmed receiver and writes nothing else; armed already, or while a drain
runs, it is refused. -/
def Obligations.StartArmsReceiver : Prop :=
  ∀ s : State,
    (s.armed = false → s.drain = none →
      exec .start s = .next { s with remaining := s.params.capacity, armed := true }) ∧
    (s.armed = true ∨ s.drain ≠ none →
      exec .start s = .next { s with out := s.out ++ [.reject] })

/-- R123: an armed `RXBYTE` stores its byte at the write position, counts down or reloads, sets
`rx_seen` and counts the byte, and changes nothing else; unarmed, the byte is lost and nothing
changes at all. -/
def Obligations.RxbyteStoresReceivedByte : Prop :=
  ∀ (b : Byte) (s : State),
    (s.armed = true → ∃ t, exec (.rxbyte b) s = .next t ∧ t = { s with
      ring := s.ring.write ((s.params.capacity - s.remaining) % s.params.capacity) b
      remaining := if s.remaining = 1 then s.params.capacity else s.remaining - 1
      rxSeen := true
      wTotal := s.wTotal + 1
      diag := t.diag }) ∧
    (s.armed = false → exec (.rxbyte b) s = .next s)

/-- R123, R13, R66: after an armed `RXBYTE` the element at the write position reads as the byte, and
every other element of every array reads as before. -/
def Obligations.RxbyteWritesOneElement : Prop :=
  ∀ (b : Byte) (s : State), s.armed = true → ∃ t, exec (.rxbyte b) s = .next t ∧
    t.elem .ring ((s.params.capacity - s.remaining) % s.params.capacity) = b ∧
    ∀ a i, ¬(a = .ring ∧ i = (s.params.capacity - s.remaining) % s.params.capacity) →
      t.elem a i = s.elem a i

/-- R61, R124: with `remaining` in its range, each stored byte moves the write position to the next
ring index, from CAPACITY - 1 to 0. -/
def Obligations.RxbyteAdvancesWritePosition : Prop :=
  ∀ (b : Byte) (s : State), s.armed = true → 1 ≤ s.remaining → s.remaining ≤ s.params.capacity →
    ∃ t, exec (.rxbyte b) s = .next t ∧ t.writePos = (s.writePos + 1) % s.params.capacity ∧
      1 ≤ t.remaining ∧ t.remaining ≤ s.params.capacity

/-- R125, from a state with nothing unread: whatever the length of a burst, the next `IDLE` delivers
exactly its newest `u mod CAPACITY` bytes, in arrival order, wherever in the ring they lie; the other
bytes, a whole number of revolutions, are never delivered. -/
def Obligations.BurstDeliversNewestBytes : Prop :=
  ∀ (bs : List Byte) (s : State), s.armed = true → s.drain = none →
    1 ≤ s.remaining → s.remaining ≤ s.params.capacity → s.consumed = s.writePos →
    ∃ r, runEvents (Instr.rx bs) s = .next r ∧
      runEvents (Instr.rxi bs) s = .next
        { ((bs.drop (bs.length - bs.length % s.params.capacity)).foldl
            (fun u b => u.deliver b) r.beginDrain) with
          consumed := r.writePos, cTotal := r.wTotal, drain := none }

/-! ## The frame boundary detector -/

/-- R143: the sub-spans of a drain, case by case, and that delivering them one after the other is
delivering the span of R142. -/
def Obligations.SubSpansMakeTheSpan : Prop :=
  ∀ (s : State) (wp : Nat), s.consumed < s.params.capacity → wp < s.params.capacity →
    (wp = s.consumed → s.firstSubSpan wp = [] ∧ s.secondSubSpan wp = [] ∧ (s.span wp).length = 0) ∧
    (s.consumed < wp → s.firstSubSpan wp = List.range' s.consumed (wp - s.consumed) ∧
      s.secondSubSpan wp = [] ∧ (s.span wp).length = wp - s.consumed) ∧
    (wp < s.consumed →
      s.firstSubSpan wp = List.range' s.consumed (s.params.capacity - s.consumed) ∧
      s.secondSubSpan wp = List.range' 0 wp ∧
      (s.span wp).length = s.params.capacity - s.consumed + wp) ∧
    s.span wp = s.firstSubSpan wp ++ s.secondSubSpan wp

/-- R146: micro-step 1 samples the write position once and sets the drain up; nothing else changes. -/
def Obligations.Idle1SamplesWritePosition : Prop :=
  ∀ s : State, s.drain = none → exec .idle1 s = .next { s with
    drain := some
      { wp := (s.params.capacity - s.remaining) % s.params.capacity
        pos := s.consumed
        stop := false
        ws := s.wTotal }
    rxSeen := false }

/-- R147 (a), R152: after a terminator under DROP_REST, micro-step 2 passes a byte over; only `pos`
moves. -/
def Obligations.Idle2SkipsWhenStopped : Prop :=
  ∀ (s : State) (d : Drain), s.drain = some d → d.pos ≠ d.wp → d.stop = true →
    exec .idle2 s = .next
      { s with drain := some { d with pos := (d.pos + 1) % s.params.capacity } }

/-- R147, R161: micro-step 2 gives `ring[pos]` to `INGEST`, which appends it when the assembler has
room and it does not complete a terminator; `pos` moves on; nothing else changes. -/
def Obligations.Idle2AppendsOrdinaryByte : Prop :=
  ∀ (s : State) (d : Drain), s.drain = some d → d.pos ≠ d.wp → d.pos < s.params.capacity →
    d.stop = false → s.cursor < s.params.maxLen →
    ¬(1 ≤ s.cursor ∧ s.elem .asm (s.cursor - 1) = 0x0D ∧ s.elem .ring d.pos = 0x0A) →
    exec .idle2 s = .next { s with
      asm := s.asm.write s.cursor (s.elem .ring d.pos)
      cursor := s.cursor + 1
      drain := some { d with pos := (d.pos + 1) % s.params.capacity } }

/-- R164: a byte that arrives with `cursor = MAX_LEN` clears the assembler and is discarded with it;
`stop` and `msg_len` stand, nothing is emitted, and the scan goes on. -/
def Obligations.Idle2OverflowClearsAssembler : Prop :=
  ∀ (s : State) (d : Drain), s.drain = some d → d.pos ≠ d.wp → d.stop = false →
    s.cursor = s.params.maxLen →
    ∃ t, exec .idle2 s = .next t ∧ (∀ i, i < s.params.maxLen → t.elem .asm i = 0x00) ∧
      (∀ i, s.params.maxLen ≤ i → t.elem .asm i = s.elem .asm i) ∧
      t = { s with
        asm := t.asm
        cursor := 0
        ready := false
        diag := t.diag
        drain := some { d with pos := (d.pos + 1) % s.params.capacity } }

/-- R163, R181, R182, R183: a line-feed after a carriage-return completes a message: it is cut before
the terminator and terminated both ways and correlated at once, and the cursor starts anew; under
DROP_REST the rest of the span is to be skipped. `echo` is R181's test in full: a command is pending and
the text matches it without its terminator; then the message is dropped and the record cleared, else
the message is forwarded and the record stands. -/
def Obligations.Idle2CompletesMessage : Prop :=
  ∀ (s : State) (d : Drain), s.drain = some d → d.pos ≠ d.wp → d.pos < s.params.capacity →
    d.stop = false → 1 ≤ s.cursor → s.cursor < s.params.maxLen → s.pendLen ≤ s.params.txMax →
    s.elem .asm (s.cursor - 1) = 0x0D → s.elem .ring d.pos = 0x0A →
    ∃ t echo, exec .idle2 s = .next t ∧
      echo = (s.pendValid && matchEcho s.params.echoPolicy (s.prefixBytes .asm (s.cursor - 1))
        (stripTerminator (s.prefixBytes .pendText s.pendLen))) ∧
      t.elem .asm (s.cursor - 1) = 0x00 ∧ t.elem .asm s.cursor = 0x0A ∧
      (∀ i, i ≠ s.cursor - 1 → i ≠ s.cursor → t.elem .asm i = s.elem .asm i) ∧
      t = { s with
        asm := t.asm
        msgLen := s.cursor - 1
        ready := false
        cursor := 0
        pendValid := s.pendValid && !echo
        out := if echo then s.out
          else s.out ++ [.msg (s.prefixBytes .asm (s.cursor - 1))]
        drain := some { d with
          pos := (d.pos + 1) % s.params.capacity
          stop := decide (s.params.scanPolicy = .dropRest) } }

/-- R147, R62: the bytes micro-step 2 stores: none when the byte is skipped; the element at `cursor`,
and the carriage-return before it when the message completes; indices 0 .. MAX_LEN - 1 of the assembler
on overflow. Every other element of every array reads as before: none at or above MAX_LEN is ever
stored to. -/
def Obligations.Idle2StoresOnlyInAssembler : Prop :=
  ∀ (s : State) (d : Drain), s.drain = some d → d.pos ≠ d.wp → d.pos < s.params.capacity →
    ∃ t, exec .idle2 s = .next t ∧
      (∀ a i, a ≠ .asm → t.elem a i = s.elem a i) ∧
      (d.stop = true → ∀ i, t.elem .asm i = s.elem .asm i) ∧
      (s.cursor < s.params.maxLen → ∀ i, i ≠ s.cursor →
        (s.elem .asm (s.cursor - 1) = 0x0D → s.elem .ring d.pos = 0x0A → i + 1 ≠ s.cursor) →
        t.elem .asm i = s.elem .asm i) ∧
      (∀ i, s.params.maxLen ≤ i → t.elem .asm i = s.elem .asm i)

/-- R149: micro-step 3 sets `consumed` to the position sampled at micro-step 1 and ends the drain. -/
def Obligations.Idle3AdvancesConsumed : Prop :=
  ∀ (s : State) (d : Drain), s.drain = some d → d.pos = d.wp →
    exec .idle3 s = .next { s with consumed := d.wp, cTotal := d.ws, drain := none }

/-- R142, R145: `IDLE` delivers the bytes of the span, in order and each once, to the line decoder, and
then moves `consumed` to the sampled write position. -/
def Obligations.IdleDeliversSpanInOrder : Prop :=
  ∀ s : State, s.drain = none → s.consumed < s.params.capacity →
    exec .idle s = .next
      { ((s.span s.writePos).foldl (fun u i => u.deliver (s.elem .ring i)) s.beginDrain) with
        consumed := s.writePos, cTotal := s.wTotal, drain := none }

/-- R150: an `IDLE` with nothing new delivers nothing: the assembler, the correlator and the log are as
before. -/
def Obligations.IdleEmptySpanDeliversNothing : Prop :=
  ∀ s : State, s.drain = none → s.writePos = s.consumed →
    exec .idle s = .next { s with rxSeen := false, cTotal := s.wTotal }

/-- R106, R145: `IDLE` is its micro-steps with nothing between them: the pseudo-operation `DRAIN`. -/
def Obligations.DrainMicroStepsEqualIdle : Prop :=
  ∀ s : State, s.drain = none → s.consumed < s.params.capacity →
    runEvents (Instr.drain s.unreadLen) s = exec .idle s

/-- R141: an `IDLE` with `rx_seen = 0` is spurious and changes nothing. -/
def Obligations.SpuriousIdleChangesNothing : Prop :=
  ∀ s : State, Inv s → s.drain = none → s.rxSeen = false → exec .idle s = .next s

/-- R74: if fewer than CAPACITY - n + 1 bytes are stored between micro-step 1 and the last micro-step 2
of a drain of n bytes, the drain has the effect of an atomic `IDLE` at micro-step 1 with those stores
moved after it (up to the diagnostic markers, whose ghost count the move changes). -/
def Obligations.ShortDrainIsAtomic : Prop :=
  ∀ (mid : List Instr) (post : List Byte) (s : State), s.drain = none →
    s.consumed < s.params.capacity → 1 ≤ s.remaining → s.remaining ≤ s.params.capacity →
    (∀ i ∈ mid, i = .idle2 ∨ i.agent = .P) →
    mid.countP (fun i => decide (i = .idle2)) = s.unreadLen →
    mid.countP (fun i => decide (i.agent = .P)) < s.params.capacity - s.unreadLen + 1 →
    mapOutcome State.forgetDiag (runEvents (.idle1 :: (mid ++ Instr.rx post ++ [.idle3])) s) =
      mapOutcome State.forgetDiag
        (runEvents (.idle :: (mid.filter (fun i => decide (i.agent = .P)) ++ Instr.rx post)) s)

/-! ## The line decoder and the correlator -/

/-- R171, R163, R168: a line whose text fits, sent in one burst to an idle receiver with an empty
assembler, becomes exactly one message with exactly that text, wherever in the ring it lies: forwarded,
or dropped if it is the echo of the pending command (R181's test in full). -/
def Obligations.TerminatedLineBecomesOneMessage : Prop :=
  ∀ (text : List Byte) (s : State), Inv s → s.armed = true → s.drain = none →
    s.consumed = s.writePos → s.cursor = 0 →
    text.length + 2 < s.params.capacity → text.length + 2 ≤ s.params.maxLen →
    (∀ k, ¬(text[k]? = some (0x0D : Byte) ∧ text[k + 1]? = some (0x0A : Byte))) →
    ∃ t echo, runEvents (Instr.rxi (text ++ [0x0D, 0x0A])) s = .next t ∧
      echo = (s.pendValid && matchEcho s.params.echoPolicy text
        (stripTerminator (s.prefixBytes .pendText s.pendLen))) ∧
      t.out = (if echo then s.out else s.out ++ [.msg text]) ∧
      t.pendValid = (s.pendValid && !echo) ∧
      t.msgLen = text.length ∧ t.cursor = 0 ∧ t.consumed = t.writePos ∧ t.drain = none

/-- R171, R164: MAX_LEN + 1 bytes without a terminator, in one burst from an empty assembler, yield no
message and leave the assembler empty and cleared. -/
def Obligations.OversizeBurstYieldsNoMessage : Prop :=
  ∀ (bs : List Byte) (s : State), Inv s → s.armed = true → s.drain = none →
    s.consumed = s.writePos → s.cursor = 0 →
    bs.length = s.params.maxLen + 1 → bs.length < s.params.capacity →
    (∀ k, ¬(bs[k]? = some (0x0D : Byte) ∧ bs[k + 1]? = some (0x0A : Byte))) →
    ∃ t, runEvents (Instr.rxi bs) s = .next t ∧ t.out = s.out ∧ t.cursor = 0 ∧
      t.msgLen = s.msgLen ∧ t.pendValid = s.pendValid ∧
      ∀ i, i < s.params.maxLen → t.elem .asm i = 0x00

/-- R185: `STRIP` removes exactly one trailing terminator, and nothing from any other command. -/
def Obligations.StripRemovesOneTerminator : Prop :=
  (∀ p : List Byte, stripTerminator (p ++ [0x0D, 0x0A]) = p) ∧
  (∀ p : List Byte, (¬ ∃ q, p = q ++ [0x0D, 0x0A]) → stripTerminator p = p)

/-- R184: `MATCH` under the two policies. -/
def Obligations.MatchComparesByPolicy : Prop :=
  (∀ text p : List Byte, matchEcho .exact text p = true ↔
    text.length = p.length ∧ ∀ i, i < p.length → text[i]? = p[i]?) ∧
  (∀ text p : List Byte, matchEcho .contains text p = true ↔
    ∃ k, k + p.length ≤ text.length ∧ ∀ i, i < p.length → text[k + i]? = p[i]?)

/-- R188, R184, R187: after a command send that started, a received line equal to the command without
its terminator is not forwarded, under either policy, and clears the record. -/
def Obligations.OwnEchoIsSuppressed : Prop :=
  ∀ (text : List Byte) (now : Time) (s : State), Inv s → s.armed = true → s.drain = none →
    s.inFlight = false → s.consumed = s.writePos → s.cursor = 0 →
    text.length + 2 < s.params.capacity → text.length + 2 ≤ s.params.maxLen →
    text.length + 2 ≤ s.params.txMax →
    (∀ k, ¬(text[k]? = some (0x0D : Byte) ∧ text[k + 1]? = some (0x0A : Byte))) →
    ∃ t, runEvents (.sendc .ok now (text ++ [0x0D, 0x0A]) :: Instr.rxi (text ++ [0x0D, 0x0A])) s
        = .next t ∧
      t.out = s.out ++ [.txstart (text ++ [0x0D, 0x0A]), .res .ok] ∧ t.pendValid = false

/-! ## The transmit gate and the scheduler -/

/-- R200, R197, R198: what `SENDD` does between drains with legal data: refused at a closed gate;
not started when the engine does not take it; else the gate closes, the data is copied, the reference
time taken and the transfer started. The pending record is never touched. -/
def Obligations.SenddFollowsGate : Prop :=
  ∀ (br : Br) (now : Time) (data : List Byte) (s : State), s.drain = none →
    1 ≤ data.length → data.length ≤ s.params.txMax →
    (s.inFlight = true → ∃ t, exec (.sendd br now data) s = .next t ∧
      t = { s with out := s.out ++ [.res .busy], diag := t.diag }) ∧
    (s.inFlight = false → br ≠ .ok →
      exec (.sendd br now data) s = .next { s with out := s.out ++ [.res .busy] }) ∧
    (s.inFlight = false → br = .ok → ∃ t, exec (.sendd br now data) s = .next t ∧ t = { s with
      inFlight := true
      txBuf := s.txBuf.writeBytes 0 data
      txLen := data.length
      schedRef := now
      out := s.out ++ [.txstart data, .res .ok]
      txOwed := t.txOwed })

/-- R201, R197, R198: what `SENDC` does between drains with legal data: as `SENDD`, and a started send
overwrites the pending record; a refused one leaves it. -/
def Obligations.SendcFollowsGate : Prop :=
  ∀ (br : Br) (now : Time) (data : List Byte) (s : State), s.drain = none →
    1 ≤ data.length → data.length ≤ s.params.txMax →
    (s.inFlight = true → ∃ t, exec (.sendc br now data) s = .next t ∧
      t = { s with out := s.out ++ [.res .busy], diag := t.diag }) ∧
    (s.inFlight = false → br ≠ .ok →
      exec (.sendc br now data) s = .next { s with out := s.out ++ [.res .busy] }) ∧
    (s.inFlight = false → br = .ok → ∃ t, exec (.sendc br now data) s = .next t ∧ t = { s with
      pendText := s.pendText.writeBytes 0 data
      pendLen := data.length
      pendTime := now
      pendValid := true
      inFlight := true
      txBuf := s.txBuf.writeBytes 0 data
      txLen := data.length
      schedRef := now
      out := s.out ++ [.txstart data, .res .ok]
      txOwed := t.txOwed })

/-- R198, R62: a started send stores its data at the head of `tx_buf`, a command send at the head of
`pend_text` too, and every other element of every array reads as before. -/
def Obligations.StartedSendStoresOnlyItsData : Prop :=
  ∀ (cmd : Bool) (now : Time) (data : List Byte) (s : State), s.drain = none →
    s.inFlight = false → 1 ≤ data.length → data.length ≤ s.params.txMax →
    ∃ t, exec (if cmd then .sendc .ok now data else .sendd .ok now data) s = .next t ∧
      (∀ i, i < data.length → some (t.elem .txBuf i) = data[i]?) ∧
      (cmd = true → ∀ i, i < data.length → some (t.elem .pendText i) = data[i]?) ∧
      ∀ a i, ¬(a = .txBuf ∧ i < data.length) →
        ¬(cmd = true ∧ a = .pendText ∧ i < data.length) → t.elem a i = s.elem a i

/-- R204, R205: `TXDONE` opens the gate, if it was closed, and changes nothing else of the block. -/
def Obligations.TxdoneOpensGate : Prop :=
  ∀ s : State, s.drain = none → ∃ t, exec .txdone s = .next t ∧
    t = { s with inFlight := false, txOwed := t.txOwed }

/-- R207: the scheduler tick between drains: nothing before the interval has elapsed; once it has, the
keep-alive goes out through an open gate if the engine takes it, and the period is used up in every
case. No result record is emitted. -/
def Obligations.PollFollowsScheduler : Prop :=
  ∀ (br : Br) (now : Time) (s : State), s.drain = none →
    ((now - s.schedRef).toNat < s.params.interval → exec (.poll br now) s = .next s) ∧
    (s.params.interval ≤ (now - s.schedRef).toNat → s.inFlight = true ∨ br ≠ .ok →
      exec (.poll br now) s = .next { s with schedRef := now }) ∧
    (s.params.interval ≤ (now - s.schedRef).toNat → s.inFlight = false → br = .ok →
      ∃ t, exec (.poll br now) s = .next t ∧ t = { s with
        pendText := s.pendText.writeBytes 0 s.params.kaText
        pendLen := s.params.kaText.length
        pendTime := now
        pendValid := true
        inFlight := true
        txBuf := s.txBuf.writeBytes 0 s.params.kaText
        txLen := s.params.kaText.length
        schedRef := now
        out := s.out ++ [.txstart s.params.kaText]
        txOwed := t.txOwed })

/-- R211: two `POLL`s within the interval start at most one transfer, however many completions come
between them. -/
def Obligations.TwoPollsSendAtMostOnce : Prop :=
  ∀ (br1 br2 : Br) (t1 t2 : Time) (k : Nat) (s : State), s.drain = none →
    (t2 - t1).toNat < s.params.interval →
    ∃ t, runEvents (.poll br1 t1 :: (List.replicate k .txdone ++ [.poll br2 t2])) s = .next t ∧
      t.txstarts ≤ s.txstarts + 1

/-- R42, R77: along any trace without a completion and without `RESET`, at most one transfer starts,
and none if one is in flight at the beginning: between two `TXSTART` records there is a `TXDONE`. -/
def Obligations.AtMostOneTransferBetweenCompletions : Prop :=
  ∀ (trace : List Instr) (s : State), (∀ i ∈ trace, i ≠ .txdone ∧ i ≠ .reset) →
    ∃ t, runEvents trace s = .next t ∧
      t.txstarts ≤ s.txstarts + (if s.inFlight then 0 else 1)

/-- R285, R196, R197: while no completion and no `RESET` comes, a closed gate stays closed and the
transfer in flight is not altered, whatever else happens. -/
def Obligations.StuckGateKeepsTransfer : Prop :=
  ∀ (trace : List Instr) (s : State), s.inFlight = true →
    (∀ i ∈ trace, i ≠ .txdone ∧ i ≠ .reset) →
    ∃ t, runEvents trace s = .next t ∧ t.inFlight = true ∧ t.txLen = s.txLen ∧
      (∀ i, t.elem .txBuf i = s.elem .txBuf i) ∧
      t.pendLen = s.pendLen ∧ t.pendTime = s.pendTime ∧
      (∀ i, t.elem .pendText i = s.elem .pendText i)

/-- R209: what moves `sched_ref`: `RESET`, a `POLL` that finds the interval elapsed, and a send that
starts; nothing else. -/
def Obligations.OnlySendsAndElapsedPollsMoveReference : Prop :=
  ∀ (i : Instr) (s t : State), exec i s = .next t → t.schedRef ≠ s.schedRef →
    i = .reset ∨
    (∃ br now, i = .poll br now ∧ s.params.interval ≤ (now - s.schedRef).toNat ∧
      t.schedRef = now) ∨
    (∃ now data, (i = .sendd .ok now data ∨ i = .sendc .ok now data) ∧ s.inFlight = false ∧
      t.inFlight = true ∧ t.schedRef = now)

/-! ## Notifications, contexts and conditions -/

/-- R230: every operation completes in every state, and so does every step: no fault, no refusal. That
step answers when the trace has ended, where R274 only ends the run, is the model's choice (log 11). -/
def Obligations.EveryOperationCompletes : Prop :=
  (∀ (i : Instr) (s : State), ∃ t, exec i s = .next t) ∧ (∀ s : State, ∃ t, step s = .next t)

/-- R242: `IDLE` and `TXDONE` commute, in every state. -/
def Obligations.IdleAndTxdoneCommute : Prop :=
  ∀ s : State, runEvents [.idle, .txdone] s = runEvents [.txdone, .idle] s

/-- R99 (c), (e), R72: an event without a step in the present state, or a send of an illegal length,
emits the single record `REJECT` and changes nothing else. -/
def Obligations.DisabledEventsAreRejected : Prop :=
  ∀ s : State,
    (∀ i : Instr, s.drain ≠ none →
      i ≠ .reset → i.agent ≠ .P → i ≠ .idle2 → i ≠ .idle3 →
      exec i s = .next { s with out := s.out ++ [.reject] }) ∧
    (s.drain = none → exec .idle2 s = .next { s with out := s.out ++ [.reject] } ∧
      exec .idle3 s = .next { s with out := s.out ++ [.reject] }) ∧
    (∀ d, s.drain = some d → d.pos = d.wp →
      exec .idle2 s = .next { s with out := s.out ++ [.reject] }) ∧
    (∀ d, s.drain = some d → d.pos ≠ d.wp →
      exec .idle3 s = .next { s with out := s.out ++ [.reject] }) ∧
    (s.armed = true → exec .start s = .next { s with out := s.out ++ [.reject] }) ∧
    (∀ br now data, data.length = 0 ∨ s.params.txMax < data.length →
      exec (.sendd br now data) s = .next { s with out := s.out ++ [.reject] } ∧
      exec (.sendc br now data) s = .next { s with out := s.out ++ [.reject] })

/-- R231 to R234 through the diagnostic trace the model keeps (R14; log 7): `RXBYTE` marks `Overrun`
exactly when CAPACITY or more bytes were undelivered, a delivery marks `Oversize` exactly when the
assembler was full, a send marks `Busy` exactly at a closed gate, and `POLL` marks nothing. -/
def Obligations.ConditionsAreMarkedWhereRaised : Prop :=
  (∀ (b : Byte) (s : State), s.armed = true → ∃ t, exec (.rxbyte b) s = .next t ∧
    t.diag = if s.cTotal + s.params.capacity ≤ s.wTotal then s.diag ++ [.overrun] else s.diag) ∧
  (∀ (s : State) (d : Drain), s.drain = some d → d.pos ≠ d.wp → d.stop = false →
    s.cursor ≤ s.params.maxLen → ∃ t, exec .idle2 s = .next t ∧
      t.diag = if s.cursor = s.params.maxLen then s.diag ++ [.oversize] else s.diag) ∧
  (∀ (br : Br) (now : Time) (data : List Byte) (s : State), s.drain = none →
    1 ≤ data.length → data.length ≤ s.params.txMax →
    ∃ t u, exec (.sendd br now data) s = .next t ∧ exec (.sendc br now data) s = .next u ∧
      t.diag = (if s.inFlight then s.diag ++ [.busy] else s.diag) ∧ u.diag = t.diag) ∧
  (∀ (br : Br) (now : Time) (s : State), ∃ t, exec (.poll br now) s = .next t ∧ t.diag = s.diag)

/-- R36 (log 6): a send that starts makes the environment owe a completion and `TXDONE` discharges it;
until a `RESET` the gate's belief and the environment's knowledge agree. -/
def Obligations.GateAgreesWithEnvironment : Prop :=
  ∀ (i : Instr) (s : State), i ≠ .reset → s.inFlight = s.txOwed →
    ∃ t, exec i s = .next t ∧ t.inFlight = t.txOwed

/-- R21, R250: each context writes only its own state. Agent P: `ring`, `remaining`, `rx_seen` (sets). Agent I:
the receive side, and of the shared flags it only clears `rx_seen`, `pend_valid`, `in_flight`. Agent M:
the gate, the pending record, and by `START` alone the arming; the shared flags it only sets, and no
cursor of the receive side. -/
def Obligations.ContextsWriteOnlyTheirState : Prop :=
  ∀ (i : Instr) (s : State), ∃ t, exec i s = .next t ∧
    (i.agent = .P → OnlyProducerState s t) ∧
    (i.agent = .I → OnlyInterruptState s t) ∧
    (i.agent = .M → OnlyMainLoopState s t ∧
      (i ≠ .start → t.armed = s.armed ∧ t.remaining = s.remaining))

/-! ## Whole-machine invariants -/

/-- R40, R45, R41: the invariants hold at `State.reset`. `Inv` also holds the model's own clauses about
`tx_owed` (log 6), the transient record (log 12) and the canonical form of the arrays (log 17), here and
below. -/
def Obligations.InvHoldsAtReset : Prop := Inv State.reset

/-- R40: the invariants hold after every `RESET`, of every block and from every state. -/
def Obligations.InvHoldsAfterEveryReset : Prop :=
  ∀ s : State, ∃ t, exec .reset s = .next t ∧ Inv t

/-- R40, R45, R41: every step keeps the invariants. -/
def Obligations.InvKeptByEveryStep : Prop :=
  ∀ s t : State, Inv s → step s = .next t → Inv t

/-- The invariants, (I1) to (I9) of R40 and the model's own clauses (log 6, log 12, log 17), hold in every
state reachable from `RESET`, of every block and under every trace. -/
def Obligations.InvHoldsInReachableStates : Prop := ∀ s : State, Reachable s → Inv s

/-- R7, R38: no step changes the parameters, and the block's step is a function of the parameters, the
event and the block's state alone: it reads neither the trace nor anything else that travels with the
block in `State` (log 1, log 3), and it changes no argument. -/
def Obligations.ParametersNeverChange : Prop :=
  (∀ s t : State, step s = .next t → t.params = s.params) ∧
  ∀ (i : Instr) (s : State), ∃ t, exec i s = .next t ∧
    t.toBlock = stepBlock s.params i s.toBlock ∧ t.params = s.params ∧ t.stream = s.stream

/-- R44: records are appended; nothing but `RESET` removes or reorders one. -/
def Obligations.OutputLogOnlyGrows : Prop :=
  ∀ (i : Instr) (s : State), i ≠ .reset → ∃ t, exec i s = .next t ∧ s.out <+: t.out

/-- R41, U2 (log 4, log 5): in a state that meets the invariants no event reads an element that no
operation has written: with any other family of free values it does the same. -/
def Obligations.UnspecifiedContentsAreNeverObserved : Prop :=
  ∀ (i : Instr) (s : State) (e : Nat), Inv s → i ≠ .reset →
    ∃ t, exec i s = .next t ∧ exec i { s with epoch := e } = .next { t with epoch := e }

/-- R45: no register and no record depends on the ghost counts (nor on the diagnostic trace, which is
marked from them). -/
def Obligations.GhostsAreNeverRead : Prop :=
  ∀ (i : Instr) (s u : State), s.forgetGhosts = u.forgetGhosts →
    mapOutcome State.forgetGhosts (exec i s) = mapOutcome State.forgetGhosts (exec i u)

/-- R29, R189: nothing depends on `pend_time`: there is no timeout on a pending command. -/
def Obligations.PendingTimeIsNeverRead : Prop :=
  ∀ (i : Instr) (s : State) (x : Time), ∃ t y, exec i s = .next t ∧
    exec i { s with pendTime := x } = .next { t with pendTime := y }

/-- R24, R141: nothing depends on `rx_seen`: it only tells the environment that an idle notification is
due. -/
def Obligations.RxSeenIsNeverRead : Prop :=
  ∀ (i : Instr) (s : State) (x : Bool), ∃ t y, exec i s = .next t ∧
    exec i { s with rxSeen := x } = .next { t with rxSeen := y }

/-! ## The event stream -/

/-- R90, R98: a step applies the event the decoder reads at the head of the trace, with the trace moved
past that event's bytes. -/
def Obligations.StepRunsDecodedEvent : Prop :=
  ∀ (s : State) (i : Instr) (rest : List Byte), decodeEvent s.stream = .event i rest →
    step s = exec i { s with stream := rest }

/-- R99 (a), (b), (d): a step over an invalid event passes its bytes and emits `REJECT`, nothing else. -/
def Obligations.StepRejectsInvalidBytes : Prop :=
  ∀ (s : State) (why : DecodeError) (rest : List Byte), decodeEvent s.stream = .invalid why rest →
    step s = .next { s with stream := rest, out := s.out ++ [.reject] }

/-- The model's choice where R274 ends a run with its trace (log 11): with no event left nothing
happens. -/
def Obligations.StepAtTraceEndDoesNothing : Prop :=
  ∀ s : State, s.stream = [] → step s = .next s

/-- R91, R92, R99: words written out from the spec's formats decode to the events they stand for, and
the reserved ones are refused with the lengths R99 gives them. -/
def Obligations.SampleWordsDecode : Prop :=
  decodeEvent [0x00] = .event .reset [] ∧
  decodeEvent [0x10, 0x41, 0x20] = .event (.rxbyte 0x41) [0x20] ∧
  decodeEvent [0x31, 0x00, 0x78, 0x56, 0x34, 0x12, 0x04, 0x41, 0x54, 0x0D, 0x0A] =
    .event (.sendc .ok 0x12345678 [0x41, 0x54, 0x0D, 0x0A]) [] ∧
  decodeEvent [0x32, 0x02, 0xE8, 0x03, 0x00, 0x00, 0x21] = .event (.poll .error 1000) [0x21] ∧
  decodeEvent [0xFF, 0x41] = .invalid .unknownOpcode [0x41] ∧
  decodeEvent [0x32, 0x03, 0xE8, 0x03, 0x00, 0x00, 0x21] = .invalid .reservedBr [0x21] ∧
  decodeEvent [0x32, 0x04, 0xE8, 0x03, 0x00, 0x00, 0x21] = .invalid .reservedEnv [0x21] ∧
  decodeEvent [0x32, 0x00, 0xE8] = .invalid .truncated []

/-- R92: every opcode byte but the eleven of the map is reserved, 245 in all, and no byte is selected
by two rows. -/
def Obligations.OpcodeMapIsUnambiguous : Prop :=
  ((List.range 256).countP fun n => (lookupOp (BitVec.ofNat 8 n)).isNone) = 245 ∧
  opcodeTable.Pairwise fun r q => ∀ n < 256,
    ¬(r.selects (BitVec.ofNat 8 n) = true ∧ q.selects (BitVec.ofNat 8 n) = true)

/-- R91 to R98: decoding the bytes of a legal event, whatever follows them, gives the event and what
follows. -/
def Obligations.DecodeInvertsEncode : Prop :=
  ∀ (p : Config.Params) (i : Instr) (rest : List Byte), i.wellFormed p = true →
    decodeEvent (encode i ++ rest) = .event i rest

/-- R98: no operation has two encodings: what decodes to an event is that event's encoding. -/
def Obligations.EncodingsAreUnique : Prop :=
  ∀ (bytes : List Byte) (i : Instr) (rest : List Byte), decodeEvent bytes = .event i rest →
    bytes = encode i ++ rest

/-- R90, R98: the event stream of a trace of legal events decodes to that trace. -/
def Obligations.StreamDecodesToItsTrace : Prop :=
  ∀ (p : Config.Params) (trace : List Instr), (∀ i ∈ trace, i.wellFormed p = true) →
    decodeStream (encodeStream trace) = trace.map .event

/-- R100: the output stream determines the log: two logs of records the block can emit with the same
bytes are the same log. -/
def Obligations.OutputStreamDeterminesLog : Prop :=
  ∀ (p : Config.Params) (l m : List Record), (∀ r ∈ l, r.wellFormed p = true) →
    (∀ r ∈ m, r.wellFormed p = true) → l.flatMap encodeRecord = m.flatMap encodeRecord → l = m
end

