-- ==== Sys2Proof/Laws/State.lean ====
section
/-! SUPPORT. What each small update of the state does to each field: true by `rfl`, so that no later
proof unfolds a record update. -/

namespace Sys2Proof.Machine

/-! ## `State.emit` -/

@[simp] theorem emit_params (s : State) (r : Record) : (s.emit r).params = s.params := rfl
@[simp] theorem emit_stream (s : State) (r : Record) : (s.emit r).stream = s.stream := rfl
@[simp] theorem emit_armed (s : State) (r : Record) : (s.emit r).armed = s.armed := rfl
@[simp] theorem emit_remaining (s : State) (r : Record) : (s.emit r).remaining = s.remaining := rfl
@[simp] theorem emit_rxSeen (s : State) (r : Record) : (s.emit r).rxSeen = s.rxSeen := rfl
@[simp] theorem emit_consumed (s : State) (r : Record) : (s.emit r).consumed = s.consumed := rfl
@[simp] theorem emit_cursor (s : State) (r : Record) : (s.emit r).cursor = s.cursor := rfl
@[simp] theorem emit_msgLen (s : State) (r : Record) : (s.emit r).msgLen = s.msgLen := rfl
@[simp] theorem emit_ready (s : State) (r : Record) : (s.emit r).ready = s.ready := rfl
@[simp] theorem emit_pendValid (s : State) (r : Record) : (s.emit r).pendValid = s.pendValid := rfl
@[simp] theorem emit_pendLen (s : State) (r : Record) : (s.emit r).pendLen = s.pendLen := rfl
@[simp] theorem emit_pendTime (s : State) (r : Record) : (s.emit r).pendTime = s.pendTime := rfl
@[simp] theorem emit_inFlight (s : State) (r : Record) : (s.emit r).inFlight = s.inFlight := rfl
@[simp] theorem emit_txLen (s : State) (r : Record) : (s.emit r).txLen = s.txLen := rfl
@[simp] theorem emit_schedRef (s : State) (r : Record) : (s.emit r).schedRef = s.schedRef := rfl
@[simp] theorem emit_ring (s : State) (r : Record) : (s.emit r).ring = s.ring := rfl
@[simp] theorem emit_asm (s : State) (r : Record) : (s.emit r).asm = s.asm := rfl
@[simp] theorem emit_pendText (s : State) (r : Record) : (s.emit r).pendText = s.pendText := rfl
@[simp] theorem emit_txBuf (s : State) (r : Record) : (s.emit r).txBuf = s.txBuf := rfl
@[simp] theorem emit_drain (s : State) (r : Record) : (s.emit r).drain = s.drain := rfl
@[simp] theorem emit_out (s : State) (r : Record) : (s.emit r).out = s.out ++ [r] := rfl
@[simp] theorem emit_wTotal (s : State) (r : Record) : (s.emit r).wTotal = s.wTotal := rfl
@[simp] theorem emit_cTotal (s : State) (r : Record) : (s.emit r).cTotal = s.cTotal := rfl
@[simp] theorem emit_txOwed (s : State) (r : Record) : (s.emit r).txOwed = s.txOwed := rfl
@[simp] theorem emit_diag (s : State) (r : Record) : (s.emit r).diag = s.diag := rfl
@[simp] theorem emit_epoch (s : State) (r : Record) : (s.emit r).epoch = s.epoch := rfl

/-! ## `State.raise` -/

@[simp] theorem raise_params (s : State) (c : Condition) : (s.raise c).params = s.params := rfl
@[simp] theorem raise_stream (s : State) (c : Condition) : (s.raise c).stream = s.stream := rfl
@[simp] theorem raise_armed (s : State) (c : Condition) : (s.raise c).armed = s.armed := rfl
@[simp] theorem raise_remaining (s : State) (c : Condition) : (s.raise c).remaining = s.remaining := rfl
@[simp] theorem raise_rxSeen (s : State) (c : Condition) : (s.raise c).rxSeen = s.rxSeen := rfl
@[simp] theorem raise_consumed (s : State) (c : Condition) : (s.raise c).consumed = s.consumed := rfl
@[simp] theorem raise_cursor (s : State) (c : Condition) : (s.raise c).cursor = s.cursor := rfl
@[simp] theorem raise_msgLen (s : State) (c : Condition) : (s.raise c).msgLen = s.msgLen := rfl
@[simp] theorem raise_ready (s : State) (c : Condition) : (s.raise c).ready = s.ready := rfl
@[simp] theorem raise_pendValid (s : State) (c : Condition) : (s.raise c).pendValid = s.pendValid := rfl
@[simp] theorem raise_pendLen (s : State) (c : Condition) : (s.raise c).pendLen = s.pendLen := rfl
@[simp] theorem raise_pendTime (s : State) (c : Condition) : (s.raise c).pendTime = s.pendTime := rfl
@[simp] theorem raise_inFlight (s : State) (c : Condition) : (s.raise c).inFlight = s.inFlight := rfl
@[simp] theorem raise_txLen (s : State) (c : Condition) : (s.raise c).txLen = s.txLen := rfl
@[simp] theorem raise_schedRef (s : State) (c : Condition) : (s.raise c).schedRef = s.schedRef := rfl
@[simp] theorem raise_ring (s : State) (c : Condition) : (s.raise c).ring = s.ring := rfl
@[simp] theorem raise_asm (s : State) (c : Condition) : (s.raise c).asm = s.asm := rfl
@[simp] theorem raise_pendText (s : State) (c : Condition) : (s.raise c).pendText = s.pendText := rfl
@[simp] theorem raise_txBuf (s : State) (c : Condition) : (s.raise c).txBuf = s.txBuf := rfl
@[simp] theorem raise_drain (s : State) (c : Condition) : (s.raise c).drain = s.drain := rfl
@[simp] theorem raise_out (s : State) (c : Condition) : (s.raise c).out = s.out := rfl
@[simp] theorem raise_wTotal (s : State) (c : Condition) : (s.raise c).wTotal = s.wTotal := rfl
@[simp] theorem raise_cTotal (s : State) (c : Condition) : (s.raise c).cTotal = s.cTotal := rfl
@[simp] theorem raise_txOwed (s : State) (c : Condition) : (s.raise c).txOwed = s.txOwed := rfl
@[simp] theorem raise_diag (s : State) (c : Condition) : (s.raise c).diag = s.diag ++ [c] := rfl
@[simp] theorem raise_epoch (s : State) (c : Condition) : (s.raise c).epoch = s.epoch := rfl

/-! ## `State.reject` -/

@[simp] theorem reject_params (s : State) : (s.reject).params = s.params := rfl
@[simp] theorem reject_stream (s : State) : (s.reject).stream = s.stream := rfl
@[simp] theorem reject_armed (s : State) : (s.reject).armed = s.armed := rfl
@[simp] theorem reject_remaining (s : State) : (s.reject).remaining = s.remaining := rfl
@[simp] theorem reject_rxSeen (s : State) : (s.reject).rxSeen = s.rxSeen := rfl
@[simp] theorem reject_consumed (s : State) : (s.reject).consumed = s.consumed := rfl
@[simp] theorem reject_cursor (s : State) : (s.reject).cursor = s.cursor := rfl
@[simp] theorem reject_msgLen (s : State) : (s.reject).msgLen = s.msgLen := rfl
@[simp] theorem reject_ready (s : State) : (s.reject).ready = s.ready := rfl
@[simp] theorem reject_pendValid (s : State) : (s.reject).pendValid = s.pendValid := rfl
@[simp] theorem reject_pendLen (s : State) : (s.reject).pendLen = s.pendLen := rfl
@[simp] theorem reject_pendTime (s : State) : (s.reject).pendTime = s.pendTime := rfl
@[simp] theorem reject_inFlight (s : State) : (s.reject).inFlight = s.inFlight := rfl
@[simp] theorem reject_txLen (s : State) : (s.reject).txLen = s.txLen := rfl
@[simp] theorem reject_schedRef (s : State) : (s.reject).schedRef = s.schedRef := rfl
@[simp] theorem reject_ring (s : State) : (s.reject).ring = s.ring := rfl
@[simp] theorem reject_asm (s : State) : (s.reject).asm = s.asm := rfl
@[simp] theorem reject_pendText (s : State) : (s.reject).pendText = s.pendText := rfl
@[simp] theorem reject_txBuf (s : State) : (s.reject).txBuf = s.txBuf := rfl
@[simp] theorem reject_drain (s : State) : (s.reject).drain = s.drain := rfl
@[simp] theorem reject_out (s : State) : (s.reject).out = s.out ++ [.reject] := rfl
@[simp] theorem reject_wTotal (s : State) : (s.reject).wTotal = s.wTotal := rfl
@[simp] theorem reject_cTotal (s : State) : (s.reject).cTotal = s.cTotal := rfl
@[simp] theorem reject_txOwed (s : State) : (s.reject).txOwed = s.txOwed := rfl
@[simp] theorem reject_diag (s : State) : (s.reject).diag = s.diag := rfl
@[simp] theorem reject_epoch (s : State) : (s.reject).epoch = s.epoch := rfl

/-! ## `State.setPos` -/

@[simp] theorem setPos_params (s : State) (p : Nat) : (s.setPos p).params = s.params := rfl
@[simp] theorem setPos_stream (s : State) (p : Nat) : (s.setPos p).stream = s.stream := rfl
@[simp] theorem setPos_armed (s : State) (p : Nat) : (s.setPos p).armed = s.armed := rfl
@[simp] theorem setPos_remaining (s : State) (p : Nat) : (s.setPos p).remaining = s.remaining := rfl
@[simp] theorem setPos_rxSeen (s : State) (p : Nat) : (s.setPos p).rxSeen = s.rxSeen := rfl
@[simp] theorem setPos_consumed (s : State) (p : Nat) : (s.setPos p).consumed = s.consumed := rfl
@[simp] theorem setPos_cursor (s : State) (p : Nat) : (s.setPos p).cursor = s.cursor := rfl
@[simp] theorem setPos_msgLen (s : State) (p : Nat) : (s.setPos p).msgLen = s.msgLen := rfl
@[simp] theorem setPos_ready (s : State) (p : Nat) : (s.setPos p).ready = s.ready := rfl
@[simp] theorem setPos_pendValid (s : State) (p : Nat) : (s.setPos p).pendValid = s.pendValid := rfl
@[simp] theorem setPos_pendLen (s : State) (p : Nat) : (s.setPos p).pendLen = s.pendLen := rfl
@[simp] theorem setPos_pendTime (s : State) (p : Nat) : (s.setPos p).pendTime = s.pendTime := rfl
@[simp] theorem setPos_inFlight (s : State) (p : Nat) : (s.setPos p).inFlight = s.inFlight := rfl
@[simp] theorem setPos_txLen (s : State) (p : Nat) : (s.setPos p).txLen = s.txLen := rfl
@[simp] theorem setPos_schedRef (s : State) (p : Nat) : (s.setPos p).schedRef = s.schedRef := rfl
@[simp] theorem setPos_ring (s : State) (p : Nat) : (s.setPos p).ring = s.ring := rfl
@[simp] theorem setPos_asm (s : State) (p : Nat) : (s.setPos p).asm = s.asm := rfl
@[simp] theorem setPos_pendText (s : State) (p : Nat) : (s.setPos p).pendText = s.pendText := rfl
@[simp] theorem setPos_txBuf (s : State) (p : Nat) : (s.setPos p).txBuf = s.txBuf := rfl
@[simp] theorem setPos_drain (s : State) (p : Nat) : (s.setPos p).drain = s.drain.map fun d => { d with pos := p } := rfl
@[simp] theorem setPos_out (s : State) (p : Nat) : (s.setPos p).out = s.out := rfl
@[simp] theorem setPos_wTotal (s : State) (p : Nat) : (s.setPos p).wTotal = s.wTotal := rfl
@[simp] theorem setPos_cTotal (s : State) (p : Nat) : (s.setPos p).cTotal = s.cTotal := rfl
@[simp] theorem setPos_txOwed (s : State) (p : Nat) : (s.setPos p).txOwed = s.txOwed := rfl
@[simp] theorem setPos_diag (s : State) (p : Nat) : (s.setPos p).diag = s.diag := rfl
@[simp] theorem setPos_epoch (s : State) (p : Nat) : (s.setPos p).epoch = s.epoch := rfl

/-! ## `State.withStream` -/

@[simp] theorem withStream_params (s : State) (rest : List Byte) : (s.withStream rest).params = s.params := rfl
@[simp] theorem withStream_stream (s : State) (rest : List Byte) : (s.withStream rest).stream = rest := rfl
@[simp] theorem withStream_armed (s : State) (rest : List Byte) : (s.withStream rest).armed = s.armed := rfl
@[simp] theorem withStream_remaining (s : State) (rest : List Byte) : (s.withStream rest).remaining = s.remaining := rfl
@[simp] theorem withStream_rxSeen (s : State) (rest : List Byte) : (s.withStream rest).rxSeen = s.rxSeen := rfl
@[simp] theorem withStream_consumed (s : State) (rest : List Byte) : (s.withStream rest).consumed = s.consumed := rfl
@[simp] theorem withStream_cursor (s : State) (rest : List Byte) : (s.withStream rest).cursor = s.cursor := rfl
@[simp] theorem withStream_msgLen (s : State) (rest : List Byte) : (s.withStream rest).msgLen = s.msgLen := rfl
@[simp] theorem withStream_ready (s : State) (rest : List Byte) : (s.withStream rest).ready = s.ready := rfl
@[simp] theorem withStream_pendValid (s : State) (rest : List Byte) : (s.withStream rest).pendValid = s.pendValid := rfl
@[simp] theorem withStream_pendLen (s : State) (rest : List Byte) : (s.withStream rest).pendLen = s.pendLen := rfl
@[simp] theorem withStream_pendTime (s : State) (rest : List Byte) : (s.withStream rest).pendTime = s.pendTime := rfl
@[simp] theorem withStream_inFlight (s : State) (rest : List Byte) : (s.withStream rest).inFlight = s.inFlight := rfl
@[simp] theorem withStream_txLen (s : State) (rest : List Byte) : (s.withStream rest).txLen = s.txLen := rfl
@[simp] theorem withStream_schedRef (s : State) (rest : List Byte) : (s.withStream rest).schedRef = s.schedRef := rfl
@[simp] theorem withStream_ring (s : State) (rest : List Byte) : (s.withStream rest).ring = s.ring := rfl
@[simp] theorem withStream_asm (s : State) (rest : List Byte) : (s.withStream rest).asm = s.asm := rfl
@[simp] theorem withStream_pendText (s : State) (rest : List Byte) : (s.withStream rest).pendText = s.pendText := rfl
@[simp] theorem withStream_txBuf (s : State) (rest : List Byte) : (s.withStream rest).txBuf = s.txBuf := rfl
@[simp] theorem withStream_drain (s : State) (rest : List Byte) : (s.withStream rest).drain = s.drain := rfl
@[simp] theorem withStream_out (s : State) (rest : List Byte) : (s.withStream rest).out = s.out := rfl
@[simp] theorem withStream_wTotal (s : State) (rest : List Byte) : (s.withStream rest).wTotal = s.wTotal := rfl
@[simp] theorem withStream_cTotal (s : State) (rest : List Byte) : (s.withStream rest).cTotal = s.cTotal := rfl
@[simp] theorem withStream_txOwed (s : State) (rest : List Byte) : (s.withStream rest).txOwed = s.txOwed := rfl
@[simp] theorem withStream_diag (s : State) (rest : List Byte) : (s.withStream rest).diag = s.diag := rfl
@[simp] theorem withStream_epoch (s : State) (rest : List Byte) : (s.withStream rest).epoch = s.epoch := rfl

/-! ## `State.setFlag`, one lemma per flag: the record update it is -/

@[simp] theorem setFlag_armed (s : State) (v : Bool) : s.setFlag .armed v = { s with armed := v } := rfl

@[simp] theorem setFlag_rxSeen (s : State) (v : Bool) : s.setFlag .rxSeen v = { s with rxSeen := v } := rfl

@[simp] theorem setFlag_ready (s : State) (v : Bool) : s.setFlag .ready v = { s with ready := v } := rfl

@[simp] theorem setFlag_pendValid (s : State) (v : Bool) : s.setFlag .pendValid v = { s with pendValid := v } := rfl

@[simp] theorem setFlag_inFlight (s : State) (v : Bool) : s.setFlag .inFlight v = { s with inFlight := v } := rfl

@[simp] theorem setFlag_stop (s : State) (v : Bool) :
    s.setFlag .stop v = { s with drain := s.drain.map fun d => { d with stop := v } } := rfl

/-! ## `State.appendByte` -/

@[simp] theorem appendByte_params (s : State) (b : Byte) : (s.appendByte b).params = s.params := rfl
@[simp] theorem appendByte_stream (s : State) (b : Byte) : (s.appendByte b).stream = s.stream := rfl
@[simp] theorem appendByte_armed (s : State) (b : Byte) : (s.appendByte b).armed = s.armed := rfl
@[simp] theorem appendByte_remaining (s : State) (b : Byte) : (s.appendByte b).remaining = s.remaining := rfl
@[simp] theorem appendByte_rxSeen (s : State) (b : Byte) : (s.appendByte b).rxSeen = s.rxSeen := rfl
@[simp] theorem appendByte_consumed (s : State) (b : Byte) : (s.appendByte b).consumed = s.consumed := rfl
@[simp] theorem appendByte_cursor (s : State) (b : Byte) : (s.appendByte b).cursor = s.cursor + 1 := rfl
@[simp] theorem appendByte_msgLen (s : State) (b : Byte) : (s.appendByte b).msgLen = s.msgLen := rfl
@[simp] theorem appendByte_ready (s : State) (b : Byte) : (s.appendByte b).ready = s.ready := rfl
@[simp] theorem appendByte_pendValid (s : State) (b : Byte) : (s.appendByte b).pendValid = s.pendValid := rfl
@[simp] theorem appendByte_pendLen (s : State) (b : Byte) : (s.appendByte b).pendLen = s.pendLen := rfl
@[simp] theorem appendByte_pendTime (s : State) (b : Byte) : (s.appendByte b).pendTime = s.pendTime := rfl
@[simp] theorem appendByte_inFlight (s : State) (b : Byte) : (s.appendByte b).inFlight = s.inFlight := rfl
@[simp] theorem appendByte_txLen (s : State) (b : Byte) : (s.appendByte b).txLen = s.txLen := rfl
@[simp] theorem appendByte_schedRef (s : State) (b : Byte) : (s.appendByte b).schedRef = s.schedRef := rfl
@[simp] theorem appendByte_ring (s : State) (b : Byte) : (s.appendByte b).ring = s.ring := rfl
@[simp] theorem appendByte_asm (s : State) (b : Byte) : (s.appendByte b).asm = s.asm.write s.cursor b := rfl
@[simp] theorem appendByte_pendText (s : State) (b : Byte) : (s.appendByte b).pendText = s.pendText := rfl
@[simp] theorem appendByte_txBuf (s : State) (b : Byte) : (s.appendByte b).txBuf = s.txBuf := rfl
@[simp] theorem appendByte_drain (s : State) (b : Byte) : (s.appendByte b).drain = s.drain := rfl
@[simp] theorem appendByte_out (s : State) (b : Byte) : (s.appendByte b).out = s.out := rfl
@[simp] theorem appendByte_wTotal (s : State) (b : Byte) : (s.appendByte b).wTotal = s.wTotal := rfl
@[simp] theorem appendByte_cTotal (s : State) (b : Byte) : (s.appendByte b).cTotal = s.cTotal := rfl
@[simp] theorem appendByte_txOwed (s : State) (b : Byte) : (s.appendByte b).txOwed = s.txOwed := rfl
@[simp] theorem appendByte_diag (s : State) (b : Byte) : (s.appendByte b).diag = s.diag := rfl
@[simp] theorem appendByte_epoch (s : State) (b : Byte) : (s.appendByte b).epoch = s.epoch := rfl

/-! ## `State.cutMessage` -/

@[simp] theorem cutMessage_params (s : State) : (s.cutMessage).params = s.params := rfl
@[simp] theorem cutMessage_stream (s : State) : (s.cutMessage).stream = s.stream := rfl
@[simp] theorem cutMessage_armed (s : State) : (s.cutMessage).armed = s.armed := rfl
@[simp] theorem cutMessage_remaining (s : State) : (s.cutMessage).remaining = s.remaining := rfl
@[simp] theorem cutMessage_rxSeen (s : State) : (s.cutMessage).rxSeen = s.rxSeen := rfl
@[simp] theorem cutMessage_consumed (s : State) : (s.cutMessage).consumed = s.consumed := rfl
@[simp] theorem cutMessage_cursor (s : State) : (s.cutMessage).cursor = s.cursor := rfl
@[simp] theorem cutMessage_msgLen (s : State) : (s.cutMessage).msgLen = s.cursor - 2 := rfl
@[simp] theorem cutMessage_ready (s : State) : (s.cutMessage).ready = true := rfl
@[simp] theorem cutMessage_pendValid (s : State) : (s.cutMessage).pendValid = s.pendValid := rfl
@[simp] theorem cutMessage_pendLen (s : State) : (s.cutMessage).pendLen = s.pendLen := rfl
@[simp] theorem cutMessage_pendTime (s : State) : (s.cutMessage).pendTime = s.pendTime := rfl
@[simp] theorem cutMessage_inFlight (s : State) : (s.cutMessage).inFlight = s.inFlight := rfl
@[simp] theorem cutMessage_txLen (s : State) : (s.cutMessage).txLen = s.txLen := rfl
@[simp] theorem cutMessage_schedRef (s : State) : (s.cutMessage).schedRef = s.schedRef := rfl
@[simp] theorem cutMessage_ring (s : State) : (s.cutMessage).ring = s.ring := rfl
@[simp] theorem cutMessage_asm (s : State) : (s.cutMessage).asm = s.asm.write (s.cursor - 2) 0x00 := rfl
@[simp] theorem cutMessage_pendText (s : State) : (s.cutMessage).pendText = s.pendText := rfl
@[simp] theorem cutMessage_txBuf (s : State) : (s.cutMessage).txBuf = s.txBuf := rfl
@[simp] theorem cutMessage_drain (s : State) : (s.cutMessage).drain = s.drain := rfl
@[simp] theorem cutMessage_out (s : State) : (s.cutMessage).out = s.out := rfl
@[simp] theorem cutMessage_wTotal (s : State) : (s.cutMessage).wTotal = s.wTotal := rfl
@[simp] theorem cutMessage_cTotal (s : State) : (s.cutMessage).cTotal = s.cTotal := rfl
@[simp] theorem cutMessage_txOwed (s : State) : (s.cutMessage).txOwed = s.txOwed := rfl
@[simp] theorem cutMessage_diag (s : State) : (s.cutMessage).diag = s.diag := rfl
@[simp] theorem cutMessage_epoch (s : State) : (s.cutMessage).epoch = s.epoch := rfl

/-! ## `State.overflow` -/

@[simp] theorem overflow_params (s : State) : (s.overflow).params = s.params := rfl
@[simp] theorem overflow_stream (s : State) : (s.overflow).stream = s.stream := rfl
@[simp] theorem overflow_armed (s : State) : (s.overflow).armed = s.armed := rfl
@[simp] theorem overflow_remaining (s : State) : (s.overflow).remaining = s.remaining := rfl
@[simp] theorem overflow_rxSeen (s : State) : (s.overflow).rxSeen = s.rxSeen := rfl
@[simp] theorem overflow_consumed (s : State) : (s.overflow).consumed = s.consumed := rfl
@[simp] theorem overflow_cursor (s : State) : (s.overflow).cursor = 0 := rfl
@[simp] theorem overflow_msgLen (s : State) : (s.overflow).msgLen = s.msgLen := rfl
@[simp] theorem overflow_ready (s : State) : (s.overflow).ready = false := rfl
@[simp] theorem overflow_pendValid (s : State) : (s.overflow).pendValid = s.pendValid := rfl
@[simp] theorem overflow_pendLen (s : State) : (s.overflow).pendLen = s.pendLen := rfl
@[simp] theorem overflow_pendTime (s : State) : (s.overflow).pendTime = s.pendTime := rfl
@[simp] theorem overflow_inFlight (s : State) : (s.overflow).inFlight = s.inFlight := rfl
@[simp] theorem overflow_txLen (s : State) : (s.overflow).txLen = s.txLen := rfl
@[simp] theorem overflow_schedRef (s : State) : (s.overflow).schedRef = s.schedRef := rfl
@[simp] theorem overflow_ring (s : State) : (s.overflow).ring = s.ring := rfl
@[simp] theorem overflow_asm (s : State) : (s.overflow).asm = s.asm.writeBytes 0 (List.replicate s.params.maxLen 0x00) := rfl
@[simp] theorem overflow_pendText (s : State) : (s.overflow).pendText = s.pendText := rfl
@[simp] theorem overflow_txBuf (s : State) : (s.overflow).txBuf = s.txBuf := rfl
@[simp] theorem overflow_drain (s : State) : (s.overflow).drain = s.drain := rfl
@[simp] theorem overflow_out (s : State) : (s.overflow).out = s.out := rfl
@[simp] theorem overflow_wTotal (s : State) : (s.overflow).wTotal = s.wTotal := rfl
@[simp] theorem overflow_cTotal (s : State) : (s.overflow).cTotal = s.cTotal := rfl
@[simp] theorem overflow_txOwed (s : State) : (s.overflow).txOwed = s.txOwed := rfl
@[simp] theorem overflow_diag (s : State) : (s.overflow).diag = s.diag ++ [.oversize] := rfl
@[simp] theorem overflow_epoch (s : State) : (s.overflow).epoch = s.epoch := rfl

/-! ## `State.beginDrain` -/

@[simp] theorem beginDrain_params (s : State) : (s.beginDrain).params = s.params := rfl
@[simp] theorem beginDrain_stream (s : State) : (s.beginDrain).stream = s.stream := rfl
@[simp] theorem beginDrain_armed (s : State) : (s.beginDrain).armed = s.armed := rfl
@[simp] theorem beginDrain_remaining (s : State) : (s.beginDrain).remaining = s.remaining := rfl
@[simp] theorem beginDrain_rxSeen (s : State) : (s.beginDrain).rxSeen = false := rfl
@[simp] theorem beginDrain_consumed (s : State) : (s.beginDrain).consumed = s.consumed := rfl
@[simp] theorem beginDrain_cursor (s : State) : (s.beginDrain).cursor = s.cursor := rfl
@[simp] theorem beginDrain_msgLen (s : State) : (s.beginDrain).msgLen = s.msgLen := rfl
@[simp] theorem beginDrain_ready (s : State) : (s.beginDrain).ready = s.ready := rfl
@[simp] theorem beginDrain_pendValid (s : State) : (s.beginDrain).pendValid = s.pendValid := rfl
@[simp] theorem beginDrain_pendLen (s : State) : (s.beginDrain).pendLen = s.pendLen := rfl
@[simp] theorem beginDrain_pendTime (s : State) : (s.beginDrain).pendTime = s.pendTime := rfl
@[simp] theorem beginDrain_inFlight (s : State) : (s.beginDrain).inFlight = s.inFlight := rfl
@[simp] theorem beginDrain_txLen (s : State) : (s.beginDrain).txLen = s.txLen := rfl
@[simp] theorem beginDrain_schedRef (s : State) : (s.beginDrain).schedRef = s.schedRef := rfl
@[simp] theorem beginDrain_ring (s : State) : (s.beginDrain).ring = s.ring := rfl
@[simp] theorem beginDrain_asm (s : State) : (s.beginDrain).asm = s.asm := rfl
@[simp] theorem beginDrain_pendText (s : State) : (s.beginDrain).pendText = s.pendText := rfl
@[simp] theorem beginDrain_txBuf (s : State) : (s.beginDrain).txBuf = s.txBuf := rfl
@[simp] theorem beginDrain_drain (s : State) : (s.beginDrain).drain = some { wp := s.writePos, pos := s.consumed, stop := false, ws := s.wTotal } := rfl
@[simp] theorem beginDrain_out (s : State) : (s.beginDrain).out = s.out := rfl
@[simp] theorem beginDrain_wTotal (s : State) : (s.beginDrain).wTotal = s.wTotal := rfl
@[simp] theorem beginDrain_cTotal (s : State) : (s.beginDrain).cTotal = s.cTotal := rfl
@[simp] theorem beginDrain_txOwed (s : State) : (s.beginDrain).txOwed = s.txOwed := rfl
@[simp] theorem beginDrain_diag (s : State) : (s.beginDrain).diag = s.diag := rfl
@[simp] theorem beginDrain_epoch (s : State) : (s.beginDrain).epoch = s.epoch := rfl

/-! ## `State.recordPending` -/

@[simp] theorem recordPending_params (s : State) (now : Time) (data : List Byte) : (s.recordPending now data).params = s.params := rfl
@[simp] theorem recordPending_stream (s : State) (now : Time) (data : List Byte) : (s.recordPending now data).stream = s.stream := rfl
@[simp] theorem recordPending_armed (s : State) (now : Time) (data : List Byte) : (s.recordPending now data).armed = s.armed := rfl
@[simp] theorem recordPending_remaining (s : State) (now : Time) (data : List Byte) : (s.recordPending now data).remaining = s.remaining := rfl
@[simp] theorem recordPending_rxSeen (s : State) (now : Time) (data : List Byte) : (s.recordPending now data).rxSeen = s.rxSeen := rfl
@[simp] theorem recordPending_consumed (s : State) (now : Time) (data : List Byte) : (s.recordPending now data).consumed = s.consumed := rfl
@[simp] theorem recordPending_cursor (s : State) (now : Time) (data : List Byte) : (s.recordPending now data).cursor = s.cursor := rfl
@[simp] theorem recordPending_msgLen (s : State) (now : Time) (data : List Byte) : (s.recordPending now data).msgLen = s.msgLen := rfl
@[simp] theorem recordPending_ready (s : State) (now : Time) (data : List Byte) : (s.recordPending now data).ready = s.ready := rfl
@[simp] theorem recordPending_pendValid (s : State) (now : Time) (data : List Byte) : (s.recordPending now data).pendValid = true := rfl
@[simp] theorem recordPending_pendLen (s : State) (now : Time) (data : List Byte) : (s.recordPending now data).pendLen = data.length := rfl
@[simp] theorem recordPending_pendTime (s : State) (now : Time) (data : List Byte) : (s.recordPending now data).pendTime = now := rfl
@[simp] theorem recordPending_inFlight (s : State) (now : Time) (data : List Byte) : (s.recordPending now data).inFlight = s.inFlight := rfl
@[simp] theorem recordPending_txLen (s : State) (now : Time) (data : List Byte) : (s.recordPending now data).txLen = s.txLen := rfl
@[simp] theorem recordPending_schedRef (s : State) (now : Time) (data : List Byte) : (s.recordPending now data).schedRef = s.schedRef := rfl
@[simp] theorem recordPending_ring (s : State) (now : Time) (data : List Byte) : (s.recordPending now data).ring = s.ring := rfl
@[simp] theorem recordPending_asm (s : State) (now : Time) (data : List Byte) : (s.recordPending now data).asm = s.asm := rfl
@[simp] theorem recordPending_pendText (s : State) (now : Time) (data : List Byte) : (s.recordPending now data).pendText = s.pendText.writeBytes 0 data := rfl
@[simp] theorem recordPending_txBuf (s : State) (now : Time) (data : List Byte) : (s.recordPending now data).txBuf = s.txBuf := rfl
@[simp] theorem recordPending_drain (s : State) (now : Time) (data : List Byte) : (s.recordPending now data).drain = s.drain := rfl
@[simp] theorem recordPending_out (s : State) (now : Time) (data : List Byte) : (s.recordPending now data).out = s.out := rfl
@[simp] theorem recordPending_wTotal (s : State) (now : Time) (data : List Byte) : (s.recordPending now data).wTotal = s.wTotal := rfl
@[simp] theorem recordPending_cTotal (s : State) (now : Time) (data : List Byte) : (s.recordPending now data).cTotal = s.cTotal := rfl
@[simp] theorem recordPending_txOwed (s : State) (now : Time) (data : List Byte) : (s.recordPending now data).txOwed = s.txOwed := rfl
@[simp] theorem recordPending_diag (s : State) (now : Time) (data : List Byte) : (s.recordPending now data).diag = s.diag := rfl
@[simp] theorem recordPending_epoch (s : State) (now : Time) (data : List Byte) : (s.recordPending now data).epoch = s.epoch := rfl

/-! ## `State.startTransfer` -/

@[simp] theorem startTransfer_params (s : State) (now : Time) (data : List Byte) : (s.startTransfer now data).params = s.params := rfl
@[simp] theorem startTransfer_stream (s : State) (now : Time) (data : List Byte) : (s.startTransfer now data).stream = s.stream := rfl
@[simp] theorem startTransfer_armed (s : State) (now : Time) (data : List Byte) : (s.startTransfer now data).armed = s.armed := rfl
@[simp] theorem startTransfer_remaining (s : State) (now : Time) (data : List Byte) : (s.startTransfer now data).remaining = s.remaining := rfl
@[simp] theorem startTransfer_rxSeen (s : State) (now : Time) (data : List Byte) : (s.startTransfer now data).rxSeen = s.rxSeen := rfl
@[simp] theorem startTransfer_consumed (s : State) (now : Time) (data : List Byte) : (s.startTransfer now data).consumed = s.consumed := rfl
@[simp] theorem startTransfer_cursor (s : State) (now : Time) (data : List Byte) : (s.startTransfer now data).cursor = s.cursor := rfl
@[simp] theorem startTransfer_msgLen (s : State) (now : Time) (data : List Byte) : (s.startTransfer now data).msgLen = s.msgLen := rfl
@[simp] theorem startTransfer_ready (s : State) (now : Time) (data : List Byte) : (s.startTransfer now data).ready = s.ready := rfl
@[simp] theorem startTransfer_pendValid (s : State) (now : Time) (data : List Byte) : (s.startTransfer now data).pendValid = s.pendValid := rfl
@[simp] theorem startTransfer_pendLen (s : State) (now : Time) (data : List Byte) : (s.startTransfer now data).pendLen = s.pendLen := rfl
@[simp] theorem startTransfer_pendTime (s : State) (now : Time) (data : List Byte) : (s.startTransfer now data).pendTime = s.pendTime := rfl
@[simp] theorem startTransfer_inFlight (s : State) (now : Time) (data : List Byte) : (s.startTransfer now data).inFlight = true := rfl
@[simp] theorem startTransfer_txLen (s : State) (now : Time) (data : List Byte) : (s.startTransfer now data).txLen = data.length := rfl
@[simp] theorem startTransfer_schedRef (s : State) (now : Time) (data : List Byte) : (s.startTransfer now data).schedRef = now := rfl
@[simp] theorem startTransfer_ring (s : State) (now : Time) (data : List Byte) : (s.startTransfer now data).ring = s.ring := rfl
@[simp] theorem startTransfer_asm (s : State) (now : Time) (data : List Byte) : (s.startTransfer now data).asm = s.asm := rfl
@[simp] theorem startTransfer_pendText (s : State) (now : Time) (data : List Byte) : (s.startTransfer now data).pendText = s.pendText := rfl
@[simp] theorem startTransfer_txBuf (s : State) (now : Time) (data : List Byte) : (s.startTransfer now data).txBuf = s.txBuf.writeBytes 0 data := rfl
@[simp] theorem startTransfer_drain (s : State) (now : Time) (data : List Byte) : (s.startTransfer now data).drain = s.drain := rfl
@[simp] theorem startTransfer_out (s : State) (now : Time) (data : List Byte) : (s.startTransfer now data).out = s.out ++ [.txstart data] := rfl
@[simp] theorem startTransfer_wTotal (s : State) (now : Time) (data : List Byte) : (s.startTransfer now data).wTotal = s.wTotal := rfl
@[simp] theorem startTransfer_cTotal (s : State) (now : Time) (data : List Byte) : (s.startTransfer now data).cTotal = s.cTotal := rfl
@[simp] theorem startTransfer_txOwed (s : State) (now : Time) (data : List Byte) : (s.startTransfer now data).txOwed = true := rfl
@[simp] theorem startTransfer_diag (s : State) (now : Time) (data : List Byte) : (s.startTransfer now data).diag = s.diag := rfl
@[simp] theorem startTransfer_epoch (s : State) (now : Time) (data : List Byte) : (s.startTransfer now data).epoch = s.epoch := rfl

/-! ## `State.completeTransfer` -/

@[simp] theorem completeTransfer_params (s : State) : (s.completeTransfer).params = s.params := rfl
@[simp] theorem completeTransfer_stream (s : State) : (s.completeTransfer).stream = s.stream := rfl
@[simp] theorem completeTransfer_armed (s : State) : (s.completeTransfer).armed = s.armed := rfl
@[simp] theorem completeTransfer_remaining (s : State) : (s.completeTransfer).remaining = s.remaining := rfl
@[simp] theorem completeTransfer_rxSeen (s : State) : (s.completeTransfer).rxSeen = s.rxSeen := rfl
@[simp] theorem completeTransfer_consumed (s : State) : (s.completeTransfer).consumed = s.consumed := rfl
@[simp] theorem completeTransfer_cursor (s : State) : (s.completeTransfer).cursor = s.cursor := rfl
@[simp] theorem completeTransfer_msgLen (s : State) : (s.completeTransfer).msgLen = s.msgLen := rfl
@[simp] theorem completeTransfer_ready (s : State) : (s.completeTransfer).ready = s.ready := rfl
@[simp] theorem completeTransfer_pendValid (s : State) : (s.completeTransfer).pendValid = s.pendValid := rfl
@[simp] theorem completeTransfer_pendLen (s : State) : (s.completeTransfer).pendLen = s.pendLen := rfl
@[simp] theorem completeTransfer_pendTime (s : State) : (s.completeTransfer).pendTime = s.pendTime := rfl
@[simp] theorem completeTransfer_inFlight (s : State) : (s.completeTransfer).inFlight = false := rfl
@[simp] theorem completeTransfer_txLen (s : State) : (s.completeTransfer).txLen = s.txLen := rfl
@[simp] theorem completeTransfer_schedRef (s : State) : (s.completeTransfer).schedRef = s.schedRef := rfl
@[simp] theorem completeTransfer_ring (s : State) : (s.completeTransfer).ring = s.ring := rfl
@[simp] theorem completeTransfer_asm (s : State) : (s.completeTransfer).asm = s.asm := rfl
@[simp] theorem completeTransfer_pendText (s : State) : (s.completeTransfer).pendText = s.pendText := rfl
@[simp] theorem completeTransfer_txBuf (s : State) : (s.completeTransfer).txBuf = s.txBuf := rfl
@[simp] theorem completeTransfer_drain (s : State) : (s.completeTransfer).drain = s.drain := rfl
@[simp] theorem completeTransfer_out (s : State) : (s.completeTransfer).out = s.out := rfl
@[simp] theorem completeTransfer_wTotal (s : State) : (s.completeTransfer).wTotal = s.wTotal := rfl
@[simp] theorem completeTransfer_cTotal (s : State) : (s.completeTransfer).cTotal = s.cTotal := rfl
@[simp] theorem completeTransfer_txOwed (s : State) : (s.completeTransfer).txOwed = false := rfl
@[simp] theorem completeTransfer_diag (s : State) : (s.completeTransfer).diag = s.diag := rfl
@[simp] theorem completeTransfer_epoch (s : State) : (s.completeTransfer).epoch = s.epoch := rfl

/-! ## `State.ofBlock` -/

@[simp] theorem ofBlock_toBlock (p : Config.Params) (b : Block) : (State.ofBlock p b).toBlock = b := rfl
@[simp] theorem ofBlock_params (p : Config.Params) (b : Block) : (State.ofBlock p b).params = p := rfl
@[simp] theorem ofBlock_stream (p : Config.Params) (b : Block) : (State.ofBlock p b).stream = [] := rfl
@[simp] theorem ofBlock_txOwed (p : Config.Params) (b : Block) : (State.ofBlock p b).txOwed = false := rfl
@[simp] theorem ofBlock_diag (p : Config.Params) (b : Block) : (State.ofBlock p b).diag = [] := rfl

/-- What `stepBlock` is, once `exec` has answered. -/
theorem stepBlock_eq {p : Config.Params} {i : Instr} {b : Block} {t : State}
    (h : exec i (State.ofBlock p b) = .next t) : stepBlock p i b = t.toBlock := by
  simp only [stepBlock, h]

end Sys2Proof.Machine
end

