-- ==== Sys2Proof/Laws/Memory.lean ====
section
/-! SUPPORT. The laws of the arrays: reading after a write, and that every write keeps the canonical
form (R13, R34, R63). -/

namespace Sys2Proof.Machine

@[simp] theorem get?_nil (i : Nat) : Memory.get? [] i = none := rfl

@[simp] theorem writeBytes_nil (m : Memory) (i : Nat) : m.writeBytes i [] = m := rfl

@[simp] theorem writeBytes_cons (m : Memory) (i : Nat) (b : Byte) (bs : List Byte) :
    m.writeBytes i (b :: bs) = (m.write i b).writeBytes (i + 1) bs := rfl

/-- Everything a one-byte write does to reads. -/
theorem get?_write (m : Memory) (i j : Nat) (b : Byte) :
    (m.write i b).get? j = if j = i then some b else m.get? j := by
  induction m with
  | nil => simp [Memory.write, Memory.get?]
  | cons c m ih =>
    obtain ⟨a, v⟩ := c
    unfold Memory.write
    by_cases h1 : i < a
    · by_cases h2 : j = i <;> simp [h1, h2, Memory.get?]
    · by_cases h3 : i = a
      · subst h3
        by_cases h2 : j = i <;> simp [h2, Memory.get?]
      · by_cases h4 : j = a
        · subst h4
          have : j ≠ i := fun h => h3 h.symm
          simp [h1, h3, this, Memory.get?]
        · simp [h1, h3, h4, Memory.get?, ih]

@[simp] theorem get?_write_same (m : Memory) (i : Nat) (b : Byte) :
    (m.write i b).get? i = some b := by simp [get?_write]

theorem get?_write_other (m : Memory) {i j : Nat} (b : Byte) (h : j ≠ i) :
    (m.write i b).get? j = m.get? j := by simp [get?_write, h]

/-- Everything a write of several bytes does to reads. -/
theorem get?_writeBytes (bs : List Byte) (m : Memory) (i j : Nat) :
    (m.writeBytes i bs).get? j = if i ≤ j ∧ j < i + bs.length then bs[j - i]? else m.get? j := by
  induction bs generalizing m i with
  | nil =>
    have : ¬(i ≤ j ∧ j < i + 0) := by omega
    simp
  | cons b bs ih =>
    rw [writeBytes_cons, ih, get?_write]
    by_cases h1 : j = i
    · subst h1
      have h2 : ¬(j + 1 ≤ j ∧ j < j + 1 + bs.length) := by omega
      simp
    · by_cases h2 : i + 1 ≤ j ∧ j < i + 1 + bs.length
      · have h3 : i ≤ j ∧ j < i + (b :: bs).length := by simp only [List.length_cons]; omega
        have h4 : j - i = (j - (i + 1)) + 1 := by omega
        rw [if_pos h2, if_pos h3, h4, List.getElem?_cons_succ]
      · have h3 : ¬(i ≤ j ∧ j < i + (b :: bs).length) := by simp only [List.length_cons]; omega
        rw [if_neg h2, if_neg h3, if_neg h1]

/-- The canonical form of a nonempty array: its first index lies below the rest. -/
theorem wf_cons (c : Host.Cell) (m : Memory) :
    Memory.wf (c :: m) = true ↔ (∀ d ∈ m.head?, c.1 < d.1) ∧ Memory.wf m = true := by
  cases m with
  | nil => simp [Memory.wf]
  | cons d m => simp [Memory.wf]

theorem head_write (m : Memory) (i : Nat) (b : Byte) :
    ∀ d ∈ (m.write i b).head?, d.1 = i ∨ ∃ c ∈ m.head?, d.1 = c.1 ∧ c.1 < i := by
  cases m with
  | nil => simp [Memory.write]
  | cons c m =>
    obtain ⟨a, v⟩ := c
    unfold Memory.write
    split
    · simp
    · split
      · simp
      · simp; omega

/-- A one-byte write keeps the canonical form. -/
theorem wf_write (m : Memory) (i : Nat) (b : Byte) (h : m.wf = true) : (m.write i b).wf = true := by
  induction m with
  | nil => rfl
  | cons c m ih =>
    obtain ⟨a, v⟩ := c
    rw [wf_cons] at h
    unfold Memory.write
    split
    · rw [wf_cons, wf_cons]
      exact ⟨by simpa using ‹i < a›, h⟩
    · split
      · subst_vars
        rw [wf_cons]
        exact h
      · rw [wf_cons]
        refine ⟨?_, ih h.2⟩
        intro d hd
        rcases head_write m i b d hd with h1 | ⟨c, hc, h1, -⟩
        · simp only; omega
        · have := h.1 c hc
          simp only at this ⊢
          omega

/-- A write of several bytes keeps the canonical form. -/
theorem wf_writeBytes (bs : List Byte) (m : Memory) (i : Nat) (h : m.wf = true) :
    (m.writeBytes i bs).wf = true := by
  induction bs generalizing m i with
  | nil => exact h
  | cons b bs ih => exact ih _ _ (wf_write m i b h)

end Sys2Proof.Machine
end

