-- ==== Sys2Proof/Laws/Ops.lean ====
section
/-! SUPPORT. What each shared operation can do, said once: the fields it leaves alone, and the cases of
what it changes. Later proofs cite these and do not unfold the operations. -/

namespace Sys2Proof.Machine

/-! ## Acceptance -/

@[simp] theorem accept_true (s t : State) : s.accept true t = .next t := rfl

@[simp] theorem accept_false (s t : State) : s.accept false t = .next s.reject := rfl

/-- An accepted or rejected event always leaves a next state. -/
theorem accept_cases (s t : State) (enabled : Bool) :
    (enabled = true ∧ s.accept enabled t = .next t) ∨
      (enabled = false ∧ s.accept enabled t = .next s.reject) := by
  cases enabled <;> simp

/-- The test of a send's data is that of the syntax (R97). -/
theorem dataLegal_eq (s : State) (data : List Byte) :
    s.dataLegal data = Instr.lenLegal s.params data := rfl

/-! ## Reading -/

/-- Every array of the machine after reset has the canonical form. -/
theorem reset_array_wf (a : Config.ArrayName) : (State.reset.array a).wf = true := by
  cases a <;> rfl

/-- What is read of an array after a one-byte write to it (R13, R66). -/
theorem elem_of_write {s t : State} {a : Config.ArrayName} {i : Nat} {b : Byte}
    (h : t.array a = (s.array a).write i b) (he : t.epoch = s.epoch) (j : Nat) :
    t.elem a j = if j = i then b else s.elem a j := by
  simp only [State.elem, h, he, get?_write]
  split <;> rfl

/-- A read depends on the array and the epoch alone. -/
theorem elem_congr {s t : State} {a : Config.ArrayName} (h : t.array a = s.array a)
    (he : t.epoch = s.epoch) (i : Nat) : t.elem a i = s.elem a i := by
  simp [State.elem, h, he]

/-- What an array lists is what is read. -/
theorem elem_of_get? {s : State} {a : Config.ArrayName} {i : Nat} {b : Byte}
    (h : (s.array a).get? i = some b) : s.elem a i = b := by
  simp [State.elem, h]

@[simp] theorem length_prefixBytes (s : State) (a : Config.ArrayName) (n : Nat) :
    (s.prefixBytes a n).length = n := by simp [State.prefixBytes]

theorem getElem?_prefixBytes (s : State) (a : Config.ArrayName) (n i : Nat) :
    (s.prefixBytes a n)[i]? = if i < n then some (s.elem a i) else none := by
  by_cases h : i < n <;> simp [State.prefixBytes, h]

/-- Two states that read alike below `n` have the same first `n` bytes. -/
theorem prefixBytes_congr {s t : State} {a : Config.ArrayName} {n : Nat}
    (h : ∀ i, i < n → t.elem a i = s.elem a i) : t.prefixBytes a n = s.prefixBytes a n :=
  List.map_congr_left fun i hi => h i (List.mem_range.mp hi)

/-! ## Ring indices -/

theorem writePos_lt (s : State) : s.writePos < s.params.capacity :=
  Nat.mod_lt _ s.params.capacity_pos

theorem nextIndex_lt (s : State) (i : Nat) : s.nextIndex i < s.params.capacity :=
  Nat.mod_lt _ s.params.capacity_pos

theorem ringDistance_lt (s : State) (i j : Nat) : s.ringDistance i j < s.params.capacity :=
  Nat.mod_lt _ s.params.capacity_pos

/-- The distance from an index of the ring to an index of the ring, without the `mod`. -/
theorem ringDistance_eq (s : State) {i j : Nat} (hi : i < s.params.capacity)
    (hj : j < s.params.capacity) :
    s.ringDistance i j = if i ≤ j then j - i else j + s.params.capacity - i := by
  unfold State.ringDistance
  split
  · have : j + s.params.capacity - i = (j - i) + s.params.capacity := by omega
    rw [this, Nat.add_mod_right, Nat.mod_eq_of_lt (by omega)]
  · exact Nat.mod_eq_of_lt (by omega)

/-- The successor of an index of the ring, without the `mod`. -/
theorem nextIndex_eq (s : State) {i : Nat} (hi : i < s.params.capacity) :
    s.nextIndex i = if i + 1 = s.params.capacity then 0 else i + 1 := by
  unfold State.nextIndex
  split
  · simp [*]
  · exact Nat.mod_eq_of_lt (by omega)

/-- One delivery brings the drain one index closer to its end. -/
theorem ringDistance_nextIndex (s : State) {i j : Nat} (hi : i < s.params.capacity)
    (hj : j < s.params.capacity) (hne : i ≠ j) :
    s.ringDistance (s.nextIndex i) j + 1 = s.ringDistance i j := by
  rw [ringDistance_eq s (nextIndex_lt s i) hj, ringDistance_eq s hi hj, nextIndex_eq s hi]
  split <;> split <;> split <;> omega

theorem ringDistance_self (s : State) {i : Nat} (hi : i < s.params.capacity) :
    s.ringDistance i i = 0 := by
  rw [ringDistance_eq s hi hi, if_pos (Nat.le_refl i), Nat.sub_self]

theorem ringDistance_eq_zero (s : State) {i j : Nat} (hi : i < s.params.capacity)
    (hj : j < s.params.capacity) : s.ringDistance i j = 0 ↔ i = j := by
  rw [ringDistance_eq s hi hj]
  split <;> omega

/-! ## The ring buffer -/

@[simp] theorem noteOverrun_diag (s : State) :
    s.noteOverrun.diag = if s.overrunning then s.diag ++ [.overrun] else s.diag := by
  unfold State.noteOverrun; split <;> rfl

@[simp] theorem noteOverrun_params (s : State) : (s.noteOverrun).params = s.params := by
  unfold State.noteOverrun; split <;> rfl
@[simp] theorem noteOverrun_stream (s : State) : (s.noteOverrun).stream = s.stream := by
  unfold State.noteOverrun; split <;> rfl
@[simp] theorem noteOverrun_armed (s : State) : (s.noteOverrun).armed = s.armed := by
  unfold State.noteOverrun; split <;> rfl
@[simp] theorem noteOverrun_remaining (s : State) : (s.noteOverrun).remaining = s.remaining := by
  unfold State.noteOverrun; split <;> rfl
@[simp] theorem noteOverrun_rxSeen (s : State) : (s.noteOverrun).rxSeen = s.rxSeen := by
  unfold State.noteOverrun; split <;> rfl
@[simp] theorem noteOverrun_consumed (s : State) : (s.noteOverrun).consumed = s.consumed := by
  unfold State.noteOverrun; split <;> rfl
@[simp] theorem noteOverrun_cursor (s : State) : (s.noteOverrun).cursor = s.cursor := by
  unfold State.noteOverrun; split <;> rfl
@[simp] theorem noteOverrun_msgLen (s : State) : (s.noteOverrun).msgLen = s.msgLen := by
  unfold State.noteOverrun; split <;> rfl
@[simp] theorem noteOverrun_ready (s : State) : (s.noteOverrun).ready = s.ready := by
  unfold State.noteOverrun; split <;> rfl
@[simp] theorem noteOverrun_pendValid (s : State) : (s.noteOverrun).pendValid = s.pendValid := by
  unfold State.noteOverrun; split <;> rfl
@[simp] theorem noteOverrun_pendLen (s : State) : (s.noteOverrun).pendLen = s.pendLen := by
  unfold State.noteOverrun; split <;> rfl
@[simp] theorem noteOverrun_pendTime (s : State) : (s.noteOverrun).pendTime = s.pendTime := by
  unfold State.noteOverrun; split <;> rfl
@[simp] theorem noteOverrun_inFlight (s : State) : (s.noteOverrun).inFlight = s.inFlight := by
  unfold State.noteOverrun; split <;> rfl
@[simp] theorem noteOverrun_txLen (s : State) : (s.noteOverrun).txLen = s.txLen := by
  unfold State.noteOverrun; split <;> rfl
@[simp] theorem noteOverrun_schedRef (s : State) : (s.noteOverrun).schedRef = s.schedRef := by
  unfold State.noteOverrun; split <;> rfl
@[simp] theorem noteOverrun_ring (s : State) : (s.noteOverrun).ring = s.ring := by
  unfold State.noteOverrun; split <;> rfl
@[simp] theorem noteOverrun_asm (s : State) : (s.noteOverrun).asm = s.asm := by
  unfold State.noteOverrun; split <;> rfl
@[simp] theorem noteOverrun_pendText (s : State) : (s.noteOverrun).pendText = s.pendText := by
  unfold State.noteOverrun; split <;> rfl
@[simp] theorem noteOverrun_txBuf (s : State) : (s.noteOverrun).txBuf = s.txBuf := by
  unfold State.noteOverrun; split <;> rfl
@[simp] theorem noteOverrun_drain (s : State) : (s.noteOverrun).drain = s.drain := by
  unfold State.noteOverrun; split <;> rfl
@[simp] theorem noteOverrun_out (s : State) : (s.noteOverrun).out = s.out := by
  unfold State.noteOverrun; split <;> rfl
@[simp] theorem noteOverrun_wTotal (s : State) : (s.noteOverrun).wTotal = s.wTotal := by
  unfold State.noteOverrun; split <;> rfl
@[simp] theorem noteOverrun_cTotal (s : State) : (s.noteOverrun).cTotal = s.cTotal := by
  unfold State.noteOverrun; split <;> rfl
@[simp] theorem noteOverrun_txOwed (s : State) : (s.noteOverrun).txOwed = s.txOwed := by
  unfold State.noteOverrun; split <;> rfl
@[simp] theorem noteOverrun_epoch (s : State) : (s.noteOverrun).epoch = s.epoch := by
  unfold State.noteOverrun; split <;> rfl

/-- Everything a stored byte changes (R123). -/
theorem storeByte_eq (b : Byte) (s : State) :
    s.storeByte b = { s with
      ring := s.ring.write s.writePos b
      remaining := s.countDown
      rxSeen := true
      wTotal := s.wTotal + 1
      diag := if s.overrunning then s.diag ++ [.overrun] else s.diag } := by
  unfold State.storeByte State.noteOverrun; split <;> rfl

/-- The count after one more byte stays in its range (R20, R23). -/
theorem countDown_range (s : State) (h1 : 1 ≤ s.remaining) (h2 : s.remaining ≤ s.params.capacity) :
    1 ≤ s.countDown ∧ s.countDown ≤ s.params.capacity := by
  have := s.params.capacity_pos
  unfold State.countDown; split <;> omega

/-! ## The correlator and the line decoder -/

/-- `CORRELATE` discards an echo or forwards the message, nothing else (R181). -/
theorem correlate_cases (text : List Byte) (s : State) :
    (s.isEcho text = true ∧ s.correlate text = { s with pendValid := false }) ∨
      (s.isEcho text = false ∧ s.correlate text = s.emit (.msg text)) := by
  unfold State.correlate
  cases h : s.isEcho text <;> simp

/-- Part (d) of `COMPLETE` sets `stop` under DROP_REST and does nothing under CONTINUE. -/
theorem applyScanPolicy_cases (s : State) :
    (s.params.scanPolicy = .dropRest ∧ s.applyScanPolicy = s.setFlag .stop true) ∨
      (s.params.scanPolicy = .continueScan ∧ s.applyScanPolicy = s) := by
  unfold State.applyScanPolicy
  cases h : s.params.scanPolicy <;> simp

@[simp] theorem correlate_params (s : State) (text : List Byte) : (s.correlate text).params = s.params := by
  unfold State.correlate; split <;> rfl
@[simp] theorem correlate_stream (s : State) (text : List Byte) : (s.correlate text).stream = s.stream := by
  unfold State.correlate; split <;> rfl
@[simp] theorem correlate_armed (s : State) (text : List Byte) : (s.correlate text).armed = s.armed := by
  unfold State.correlate; split <;> rfl
@[simp] theorem correlate_remaining (s : State) (text : List Byte) : (s.correlate text).remaining = s.remaining := by
  unfold State.correlate; split <;> rfl
@[simp] theorem correlate_rxSeen (s : State) (text : List Byte) : (s.correlate text).rxSeen = s.rxSeen := by
  unfold State.correlate; split <;> rfl
@[simp] theorem correlate_consumed (s : State) (text : List Byte) : (s.correlate text).consumed = s.consumed := by
  unfold State.correlate; split <;> rfl
@[simp] theorem correlate_pendLen (s : State) (text : List Byte) : (s.correlate text).pendLen = s.pendLen := by
  unfold State.correlate; split <;> rfl
@[simp] theorem correlate_pendTime (s : State) (text : List Byte) : (s.correlate text).pendTime = s.pendTime := by
  unfold State.correlate; split <;> rfl
@[simp] theorem correlate_inFlight (s : State) (text : List Byte) : (s.correlate text).inFlight = s.inFlight := by
  unfold State.correlate; split <;> rfl
@[simp] theorem correlate_txLen (s : State) (text : List Byte) : (s.correlate text).txLen = s.txLen := by
  unfold State.correlate; split <;> rfl
@[simp] theorem correlate_schedRef (s : State) (text : List Byte) : (s.correlate text).schedRef = s.schedRef := by
  unfold State.correlate; split <;> rfl
@[simp] theorem correlate_ring (s : State) (text : List Byte) : (s.correlate text).ring = s.ring := by
  unfold State.correlate; split <;> rfl
@[simp] theorem correlate_pendText (s : State) (text : List Byte) : (s.correlate text).pendText = s.pendText := by
  unfold State.correlate; split <;> rfl
@[simp] theorem correlate_txBuf (s : State) (text : List Byte) : (s.correlate text).txBuf = s.txBuf := by
  unfold State.correlate; split <;> rfl
@[simp] theorem correlate_wTotal (s : State) (text : List Byte) : (s.correlate text).wTotal = s.wTotal := by
  unfold State.correlate; split <;> rfl
@[simp] theorem correlate_cTotal (s : State) (text : List Byte) : (s.correlate text).cTotal = s.cTotal := by
  unfold State.correlate; split <;> rfl
@[simp] theorem correlate_txOwed (s : State) (text : List Byte) : (s.correlate text).txOwed = s.txOwed := by
  unfold State.correlate; split <;> rfl
@[simp] theorem correlate_epoch (s : State) (text : List Byte) : (s.correlate text).epoch = s.epoch := by
  unfold State.correlate; split <;> rfl
@[simp] theorem correlate_cursor (s : State) (text : List Byte) : (s.correlate text).cursor = s.cursor := by
  unfold State.correlate; split <;> rfl
@[simp] theorem correlate_msgLen (s : State) (text : List Byte) : (s.correlate text).msgLen = s.msgLen := by
  unfold State.correlate; split <;> rfl
@[simp] theorem correlate_ready (s : State) (text : List Byte) : (s.correlate text).ready = s.ready := by
  unfold State.correlate; split <;> rfl
@[simp] theorem correlate_asm (s : State) (text : List Byte) : (s.correlate text).asm = s.asm := by
  unfold State.correlate; split <;> rfl
@[simp] theorem correlate_drain (s : State) (text : List Byte) : (s.correlate text).drain = s.drain := by
  unfold State.correlate; split <;> rfl
@[simp] theorem correlate_diag (s : State) (text : List Byte) : (s.correlate text).diag = s.diag := by
  unfold State.correlate; split <;> rfl

@[simp] theorem applyScanPolicy_params (s : State) : (s.applyScanPolicy).params = s.params := by
  unfold State.applyScanPolicy; split <;> rfl
@[simp] theorem applyScanPolicy_stream (s : State) : (s.applyScanPolicy).stream = s.stream := by
  unfold State.applyScanPolicy; split <;> rfl
@[simp] theorem applyScanPolicy_armed (s : State) : (s.applyScanPolicy).armed = s.armed := by
  unfold State.applyScanPolicy; split <;> rfl
@[simp] theorem applyScanPolicy_remaining (s : State) : (s.applyScanPolicy).remaining = s.remaining := by
  unfold State.applyScanPolicy; split <;> rfl
@[simp] theorem applyScanPolicy_rxSeen (s : State) : (s.applyScanPolicy).rxSeen = s.rxSeen := by
  unfold State.applyScanPolicy; split <;> rfl
@[simp] theorem applyScanPolicy_consumed (s : State) : (s.applyScanPolicy).consumed = s.consumed := by
  unfold State.applyScanPolicy; split <;> rfl
@[simp] theorem applyScanPolicy_pendLen (s : State) : (s.applyScanPolicy).pendLen = s.pendLen := by
  unfold State.applyScanPolicy; split <;> rfl
@[simp] theorem applyScanPolicy_pendTime (s : State) : (s.applyScanPolicy).pendTime = s.pendTime := by
  unfold State.applyScanPolicy; split <;> rfl
@[simp] theorem applyScanPolicy_inFlight (s : State) : (s.applyScanPolicy).inFlight = s.inFlight := by
  unfold State.applyScanPolicy; split <;> rfl
@[simp] theorem applyScanPolicy_txLen (s : State) : (s.applyScanPolicy).txLen = s.txLen := by
  unfold State.applyScanPolicy; split <;> rfl
@[simp] theorem applyScanPolicy_schedRef (s : State) : (s.applyScanPolicy).schedRef = s.schedRef := by
  unfold State.applyScanPolicy; split <;> rfl
@[simp] theorem applyScanPolicy_ring (s : State) : (s.applyScanPolicy).ring = s.ring := by
  unfold State.applyScanPolicy; split <;> rfl
@[simp] theorem applyScanPolicy_pendText (s : State) : (s.applyScanPolicy).pendText = s.pendText := by
  unfold State.applyScanPolicy; split <;> rfl
@[simp] theorem applyScanPolicy_txBuf (s : State) : (s.applyScanPolicy).txBuf = s.txBuf := by
  unfold State.applyScanPolicy; split <;> rfl
@[simp] theorem applyScanPolicy_wTotal (s : State) : (s.applyScanPolicy).wTotal = s.wTotal := by
  unfold State.applyScanPolicy; split <;> rfl
@[simp] theorem applyScanPolicy_cTotal (s : State) : (s.applyScanPolicy).cTotal = s.cTotal := by
  unfold State.applyScanPolicy; split <;> rfl
@[simp] theorem applyScanPolicy_txOwed (s : State) : (s.applyScanPolicy).txOwed = s.txOwed := by
  unfold State.applyScanPolicy; split <;> rfl
@[simp] theorem applyScanPolicy_epoch (s : State) : (s.applyScanPolicy).epoch = s.epoch := by
  unfold State.applyScanPolicy; split <;> rfl
@[simp] theorem applyScanPolicy_cursor (s : State) : (s.applyScanPolicy).cursor = s.cursor := by
  unfold State.applyScanPolicy; split <;> rfl
@[simp] theorem applyScanPolicy_msgLen (s : State) : (s.applyScanPolicy).msgLen = s.msgLen := by
  unfold State.applyScanPolicy; split <;> rfl
@[simp] theorem applyScanPolicy_ready (s : State) : (s.applyScanPolicy).ready = s.ready := by
  unfold State.applyScanPolicy; split <;> rfl
@[simp] theorem applyScanPolicy_asm (s : State) : (s.applyScanPolicy).asm = s.asm := by
  unfold State.applyScanPolicy; split <;> rfl
@[simp] theorem applyScanPolicy_pendValid (s : State) : (s.applyScanPolicy).pendValid = s.pendValid := by
  unfold State.applyScanPolicy; split <;> rfl
@[simp] theorem applyScanPolicy_out (s : State) : (s.applyScanPolicy).out = s.out := by
  unfold State.applyScanPolicy; split <;> rfl
@[simp] theorem applyScanPolicy_diag (s : State) : (s.applyScanPolicy).diag = s.diag := by
  unfold State.applyScanPolicy; split <;> rfl

@[simp] theorem complete_params (s : State) : (s.complete).params = s.params := by
  simp [State.complete]
@[simp] theorem complete_stream (s : State) : (s.complete).stream = s.stream := by
  simp [State.complete]
@[simp] theorem complete_armed (s : State) : (s.complete).armed = s.armed := by
  simp [State.complete]
@[simp] theorem complete_remaining (s : State) : (s.complete).remaining = s.remaining := by
  simp [State.complete]
@[simp] theorem complete_rxSeen (s : State) : (s.complete).rxSeen = s.rxSeen := by
  simp [State.complete]
@[simp] theorem complete_consumed (s : State) : (s.complete).consumed = s.consumed := by
  simp [State.complete]
@[simp] theorem complete_pendLen (s : State) : (s.complete).pendLen = s.pendLen := by
  simp [State.complete]
@[simp] theorem complete_pendTime (s : State) : (s.complete).pendTime = s.pendTime := by
  simp [State.complete]
@[simp] theorem complete_inFlight (s : State) : (s.complete).inFlight = s.inFlight := by
  simp [State.complete]
@[simp] theorem complete_txLen (s : State) : (s.complete).txLen = s.txLen := by
  simp [State.complete]
@[simp] theorem complete_schedRef (s : State) : (s.complete).schedRef = s.schedRef := by
  simp [State.complete]
@[simp] theorem complete_ring (s : State) : (s.complete).ring = s.ring := by
  simp [State.complete]
@[simp] theorem complete_pendText (s : State) : (s.complete).pendText = s.pendText := by
  simp [State.complete]
@[simp] theorem complete_txBuf (s : State) : (s.complete).txBuf = s.txBuf := by
  simp [State.complete]
@[simp] theorem complete_wTotal (s : State) : (s.complete).wTotal = s.wTotal := by
  simp [State.complete]
@[simp] theorem complete_cTotal (s : State) : (s.complete).cTotal = s.cTotal := by
  simp [State.complete]
@[simp] theorem complete_txOwed (s : State) : (s.complete).txOwed = s.txOwed := by
  simp [State.complete]
@[simp] theorem complete_epoch (s : State) : (s.complete).epoch = s.epoch := by
  simp [State.complete]
@[simp] theorem complete_diag (s : State) : (s.complete).diag = s.diag := by
  simp [State.complete]

@[simp] theorem complete_cursor (s : State) : s.complete.cursor = 0 := rfl

@[simp] theorem complete_msgLen (s : State) : s.complete.msgLen = s.cursor - 2 := by
  simp [State.complete]

@[simp] theorem complete_ready (s : State) : s.complete.ready = false := by
  simp [State.complete]

@[simp] theorem complete_asm (s : State) :
    s.complete.asm = s.asm.write (s.cursor - 2) 0x00 := by
  simp [State.complete]

@[simp] theorem complete_out (s : State) :
    s.complete.out = (s.cutMessage.correlate s.cutMessage.messageText).out := by
  simp [State.complete]

@[simp] theorem complete_pendValid (s : State) :
    s.complete.pendValid = (s.cutMessage.correlate s.cutMessage.messageText).pendValid := by
  simp [State.complete]

theorem complete_drain (s : State) :
    s.complete.drain = s.drain ∨ s.complete.drain = s.drain.map fun d => { d with stop := true } := by
  rcases applyScanPolicy_cases
    ((s.cutMessage.correlate s.cutMessage.messageText).setFlag .ready false) with ⟨-, h⟩ | ⟨-, h⟩
  · right; simp only [State.complete, h]; simp
  · left; simp only [State.complete, h]; simp

/-- The three things `INGEST` can do (R161). -/
theorem ingest_cases (b : Byte) (s : State) :
    (s.params.maxLen ≤ s.cursor ∧ s.ingest b = s.overflow) ∨
    (s.cursor < s.params.maxLen ∧ (s.appendByte b).terminated = true ∧
      s.ingest b = (s.appendByte b).complete) ∨
    (s.cursor < s.params.maxLen ∧ (s.appendByte b).terminated = false ∧
      s.ingest b = s.appendByte b) := by
  unfold State.ingest State.assemblerFull
  by_cases h : s.params.maxLen ≤ s.cursor
  · simp [h]
  · cases ht : (s.appendByte b).terminated <;> simp [h] <;> omega

theorem ingest_drain (b : Byte) (s : State) :
    (s.ingest b).drain = s.drain ∨
      (s.ingest b).drain = s.drain.map fun d => { d with stop := true } := by
  rcases ingest_cases b s with ⟨-, h⟩ | ⟨-, -, h⟩ | ⟨-, -, h⟩ <;> rw [h]
  · exact .inl rfl
  · exact complete_drain _
  · exact .inl rfl

@[simp] theorem ingest_params (s : State) (b : Byte) : (s.ingest b).params = s.params := by
  unfold State.ingest; split
  · rfl
  · split <;> simp
@[simp] theorem ingest_stream (s : State) (b : Byte) : (s.ingest b).stream = s.stream := by
  unfold State.ingest; split
  · rfl
  · split <;> simp
@[simp] theorem ingest_armed (s : State) (b : Byte) : (s.ingest b).armed = s.armed := by
  unfold State.ingest; split
  · rfl
  · split <;> simp
@[simp] theorem ingest_remaining (s : State) (b : Byte) : (s.ingest b).remaining = s.remaining := by
  unfold State.ingest; split
  · rfl
  · split <;> simp
@[simp] theorem ingest_rxSeen (s : State) (b : Byte) : (s.ingest b).rxSeen = s.rxSeen := by
  unfold State.ingest; split
  · rfl
  · split <;> simp
@[simp] theorem ingest_consumed (s : State) (b : Byte) : (s.ingest b).consumed = s.consumed := by
  unfold State.ingest; split
  · rfl
  · split <;> simp
@[simp] theorem ingest_pendLen (s : State) (b : Byte) : (s.ingest b).pendLen = s.pendLen := by
  unfold State.ingest; split
  · rfl
  · split <;> simp
@[simp] theorem ingest_pendTime (s : State) (b : Byte) : (s.ingest b).pendTime = s.pendTime := by
  unfold State.ingest; split
  · rfl
  · split <;> simp
@[simp] theorem ingest_inFlight (s : State) (b : Byte) : (s.ingest b).inFlight = s.inFlight := by
  unfold State.ingest; split
  · rfl
  · split <;> simp
@[simp] theorem ingest_txLen (s : State) (b : Byte) : (s.ingest b).txLen = s.txLen := by
  unfold State.ingest; split
  · rfl
  · split <;> simp
@[simp] theorem ingest_schedRef (s : State) (b : Byte) : (s.ingest b).schedRef = s.schedRef := by
  unfold State.ingest; split
  · rfl
  · split <;> simp
@[simp] theorem ingest_ring (s : State) (b : Byte) : (s.ingest b).ring = s.ring := by
  unfold State.ingest; split
  · rfl
  · split <;> simp
@[simp] theorem ingest_pendText (s : State) (b : Byte) : (s.ingest b).pendText = s.pendText := by
  unfold State.ingest; split
  · rfl
  · split <;> simp
@[simp] theorem ingest_txBuf (s : State) (b : Byte) : (s.ingest b).txBuf = s.txBuf := by
  unfold State.ingest; split
  · rfl
  · split <;> simp
@[simp] theorem ingest_wTotal (s : State) (b : Byte) : (s.ingest b).wTotal = s.wTotal := by
  unfold State.ingest; split
  · rfl
  · split <;> simp
@[simp] theorem ingest_cTotal (s : State) (b : Byte) : (s.ingest b).cTotal = s.cTotal := by
  unfold State.ingest; split
  · rfl
  · split <;> simp
@[simp] theorem ingest_txOwed (s : State) (b : Byte) : (s.ingest b).txOwed = s.txOwed := by
  unfold State.ingest; split
  · rfl
  · split <;> simp
@[simp] theorem ingest_epoch (s : State) (b : Byte) : (s.ingest b).epoch = s.epoch := by
  unfold State.ingest; split
  · rfl
  · split <;> simp

@[simp] theorem deliver_params (s : State) (b : Byte) : (s.deliver b).params = s.params := by
  unfold State.deliver; split <;> simp
@[simp] theorem deliver_stream (s : State) (b : Byte) : (s.deliver b).stream = s.stream := by
  unfold State.deliver; split <;> simp
@[simp] theorem deliver_armed (s : State) (b : Byte) : (s.deliver b).armed = s.armed := by
  unfold State.deliver; split <;> simp
@[simp] theorem deliver_remaining (s : State) (b : Byte) : (s.deliver b).remaining = s.remaining := by
  unfold State.deliver; split <;> simp
@[simp] theorem deliver_rxSeen (s : State) (b : Byte) : (s.deliver b).rxSeen = s.rxSeen := by
  unfold State.deliver; split <;> simp
@[simp] theorem deliver_consumed (s : State) (b : Byte) : (s.deliver b).consumed = s.consumed := by
  unfold State.deliver; split <;> simp
@[simp] theorem deliver_pendLen (s : State) (b : Byte) : (s.deliver b).pendLen = s.pendLen := by
  unfold State.deliver; split <;> simp
@[simp] theorem deliver_pendTime (s : State) (b : Byte) : (s.deliver b).pendTime = s.pendTime := by
  unfold State.deliver; split <;> simp
@[simp] theorem deliver_inFlight (s : State) (b : Byte) : (s.deliver b).inFlight = s.inFlight := by
  unfold State.deliver; split <;> simp
@[simp] theorem deliver_txLen (s : State) (b : Byte) : (s.deliver b).txLen = s.txLen := by
  unfold State.deliver; split <;> simp
@[simp] theorem deliver_schedRef (s : State) (b : Byte) : (s.deliver b).schedRef = s.schedRef := by
  unfold State.deliver; split <;> simp
@[simp] theorem deliver_ring (s : State) (b : Byte) : (s.deliver b).ring = s.ring := by
  unfold State.deliver; split <;> simp
@[simp] theorem deliver_pendText (s : State) (b : Byte) : (s.deliver b).pendText = s.pendText := by
  unfold State.deliver; split <;> simp
@[simp] theorem deliver_txBuf (s : State) (b : Byte) : (s.deliver b).txBuf = s.txBuf := by
  unfold State.deliver; split <;> simp
@[simp] theorem deliver_wTotal (s : State) (b : Byte) : (s.deliver b).wTotal = s.wTotal := by
  unfold State.deliver; split <;> simp
@[simp] theorem deliver_cTotal (s : State) (b : Byte) : (s.deliver b).cTotal = s.cTotal := by
  unfold State.deliver; split <;> simp
@[simp] theorem deliver_txOwed (s : State) (b : Byte) : (s.deliver b).txOwed = s.txOwed := by
  unfold State.deliver; split <;> simp
@[simp] theorem deliver_epoch (s : State) (b : Byte) : (s.deliver b).epoch = s.epoch := by
  unfold State.deliver; split <;> simp

theorem deliver_drain (b : Byte) (s : State) :
    (s.deliver b).drain = s.drain ∨
      (s.deliver b).drain = s.drain.map fun d => { d with stop := true } := by
  unfold State.deliver
  split
  · exact .inl rfl
  · exact ingest_drain b s

/-! ## The drain -/

/-- Micro-step 2 of a running drain (R147). -/
theorem deliverNext_eq {s : State} {d : Drain} (h : s.drain = some d) :
    s.deliverNext = (s.deliver (s.ringAt d.pos)).setPos (s.nextIndex d.pos) := by
  unfold State.deliverNext; rw [h]

@[simp] theorem deliverNext_none {s : State} (h : s.drain = none) : s.deliverNext = s := by
  unfold State.deliverNext; rw [h]

/-- What micro-step 2 does to the transient state: `pos` advances, `stop` may be set and is never
cleared, the samples stand. -/
theorem deliverNext_drain {s : State} {d : Drain} (h : s.drain = some d) :
    ∃ stop, (d.stop = true → stop = true) ∧
      s.deliverNext.drain = some { wp := d.wp, pos := s.nextIndex d.pos, stop := stop, ws := d.ws } := by
  rw [deliverNext_eq h]
  rcases deliver_drain (s.ringAt d.pos) s with h1 | h1
  · exact ⟨d.stop, id, by simp [h1, h]⟩
  · exact ⟨true, fun _ => rfl, by simp [h1, h]⟩

@[simp] theorem deliverNext_params (s : State) : (s.deliverNext).params = s.params := by
  unfold State.deliverNext; split <;> simp
@[simp] theorem deliverNext_stream (s : State) : (s.deliverNext).stream = s.stream := by
  unfold State.deliverNext; split <;> simp
@[simp] theorem deliverNext_armed (s : State) : (s.deliverNext).armed = s.armed := by
  unfold State.deliverNext; split <;> simp
@[simp] theorem deliverNext_remaining (s : State) : (s.deliverNext).remaining = s.remaining := by
  unfold State.deliverNext; split <;> simp
@[simp] theorem deliverNext_rxSeen (s : State) : (s.deliverNext).rxSeen = s.rxSeen := by
  unfold State.deliverNext; split <;> simp
@[simp] theorem deliverNext_consumed (s : State) : (s.deliverNext).consumed = s.consumed := by
  unfold State.deliverNext; split <;> simp
@[simp] theorem deliverNext_pendLen (s : State) : (s.deliverNext).pendLen = s.pendLen := by
  unfold State.deliverNext; split <;> simp
@[simp] theorem deliverNext_pendTime (s : State) : (s.deliverNext).pendTime = s.pendTime := by
  unfold State.deliverNext; split <;> simp
@[simp] theorem deliverNext_inFlight (s : State) : (s.deliverNext).inFlight = s.inFlight := by
  unfold State.deliverNext; split <;> simp
@[simp] theorem deliverNext_txLen (s : State) : (s.deliverNext).txLen = s.txLen := by
  unfold State.deliverNext; split <;> simp
@[simp] theorem deliverNext_schedRef (s : State) : (s.deliverNext).schedRef = s.schedRef := by
  unfold State.deliverNext; split <;> simp
@[simp] theorem deliverNext_ring (s : State) : (s.deliverNext).ring = s.ring := by
  unfold State.deliverNext; split <;> simp
@[simp] theorem deliverNext_pendText (s : State) : (s.deliverNext).pendText = s.pendText := by
  unfold State.deliverNext; split <;> simp
@[simp] theorem deliverNext_txBuf (s : State) : (s.deliverNext).txBuf = s.txBuf := by
  unfold State.deliverNext; split <;> simp
@[simp] theorem deliverNext_wTotal (s : State) : (s.deliverNext).wTotal = s.wTotal := by
  unfold State.deliverNext; split <;> simp
@[simp] theorem deliverNext_cTotal (s : State) : (s.deliverNext).cTotal = s.cTotal := by
  unfold State.deliverNext; split <;> simp
@[simp] theorem deliverNext_txOwed (s : State) : (s.deliverNext).txOwed = s.txOwed := by
  unfold State.deliverNext; split <;> simp
@[simp] theorem deliverNext_epoch (s : State) : (s.deliverNext).epoch = s.epoch := by
  unfold State.deliverNext; split <;> simp

@[simp] theorem drainLoop_params (s : State) (fuel : Nat) : (State.drainLoop fuel s).params = s.params := by
  induction fuel generalizing s with
  | zero => rfl
  | succ k ih => unfold State.drainLoop; split <;> simp [ih]
@[simp] theorem drainLoop_stream (s : State) (fuel : Nat) : (State.drainLoop fuel s).stream = s.stream := by
  induction fuel generalizing s with
  | zero => rfl
  | succ k ih => unfold State.drainLoop; split <;> simp [ih]
@[simp] theorem drainLoop_armed (s : State) (fuel : Nat) : (State.drainLoop fuel s).armed = s.armed := by
  induction fuel generalizing s with
  | zero => rfl
  | succ k ih => unfold State.drainLoop; split <;> simp [ih]
@[simp] theorem drainLoop_remaining (s : State) (fuel : Nat) : (State.drainLoop fuel s).remaining = s.remaining := by
  induction fuel generalizing s with
  | zero => rfl
  | succ k ih => unfold State.drainLoop; split <;> simp [ih]
@[simp] theorem drainLoop_rxSeen (s : State) (fuel : Nat) : (State.drainLoop fuel s).rxSeen = s.rxSeen := by
  induction fuel generalizing s with
  | zero => rfl
  | succ k ih => unfold State.drainLoop; split <;> simp [ih]
@[simp] theorem drainLoop_consumed (s : State) (fuel : Nat) : (State.drainLoop fuel s).consumed = s.consumed := by
  induction fuel generalizing s with
  | zero => rfl
  | succ k ih => unfold State.drainLoop; split <;> simp [ih]
@[simp] theorem drainLoop_pendLen (s : State) (fuel : Nat) : (State.drainLoop fuel s).pendLen = s.pendLen := by
  induction fuel generalizing s with
  | zero => rfl
  | succ k ih => unfold State.drainLoop; split <;> simp [ih]
@[simp] theorem drainLoop_pendTime (s : State) (fuel : Nat) : (State.drainLoop fuel s).pendTime = s.pendTime := by
  induction fuel generalizing s with
  | zero => rfl
  | succ k ih => unfold State.drainLoop; split <;> simp [ih]
@[simp] theorem drainLoop_inFlight (s : State) (fuel : Nat) : (State.drainLoop fuel s).inFlight = s.inFlight := by
  induction fuel generalizing s with
  | zero => rfl
  | succ k ih => unfold State.drainLoop; split <;> simp [ih]
@[simp] theorem drainLoop_txLen (s : State) (fuel : Nat) : (State.drainLoop fuel s).txLen = s.txLen := by
  induction fuel generalizing s with
  | zero => rfl
  | succ k ih => unfold State.drainLoop; split <;> simp [ih]
@[simp] theorem drainLoop_schedRef (s : State) (fuel : Nat) : (State.drainLoop fuel s).schedRef = s.schedRef := by
  induction fuel generalizing s with
  | zero => rfl
  | succ k ih => unfold State.drainLoop; split <;> simp [ih]
@[simp] theorem drainLoop_ring (s : State) (fuel : Nat) : (State.drainLoop fuel s).ring = s.ring := by
  induction fuel generalizing s with
  | zero => rfl
  | succ k ih => unfold State.drainLoop; split <;> simp [ih]
@[simp] theorem drainLoop_pendText (s : State) (fuel : Nat) : (State.drainLoop fuel s).pendText = s.pendText := by
  induction fuel generalizing s with
  | zero => rfl
  | succ k ih => unfold State.drainLoop; split <;> simp [ih]
@[simp] theorem drainLoop_txBuf (s : State) (fuel : Nat) : (State.drainLoop fuel s).txBuf = s.txBuf := by
  induction fuel generalizing s with
  | zero => rfl
  | succ k ih => unfold State.drainLoop; split <;> simp [ih]
@[simp] theorem drainLoop_wTotal (s : State) (fuel : Nat) : (State.drainLoop fuel s).wTotal = s.wTotal := by
  induction fuel generalizing s with
  | zero => rfl
  | succ k ih => unfold State.drainLoop; split <;> simp [ih]
@[simp] theorem drainLoop_cTotal (s : State) (fuel : Nat) : (State.drainLoop fuel s).cTotal = s.cTotal := by
  induction fuel generalizing s with
  | zero => rfl
  | succ k ih => unfold State.drainLoop; split <;> simp [ih]
@[simp] theorem drainLoop_txOwed (s : State) (fuel : Nat) : (State.drainLoop fuel s).txOwed = s.txOwed := by
  induction fuel generalizing s with
  | zero => rfl
  | succ k ih => unfold State.drainLoop; split <;> simp [ih]
@[simp] theorem drainLoop_epoch (s : State) (fuel : Nat) : (State.drainLoop fuel s).epoch = s.epoch := by
  induction fuel generalizing s with
  | zero => rfl
  | succ k ih => unfold State.drainLoop; split <;> simp [ih]

/-- `endDrain` of a running drain (R149). -/
theorem endDrain_eq {s : State} {d : Drain} (h : s.drain = some d) :
    s.endDrain = { s with consumed := d.wp, cTotal := d.ws, drain := none } := by
  unfold State.endDrain; rw [h]

/-- A drain given enough fuel reaches its sampled write position (R151), with its samples unchanged. -/
theorem drainLoop_drain {s : State} {d : Drain} (h : s.drain = some d)
    (hp : d.pos < s.params.capacity) (hw : d.wp < s.params.capacity) {fuel : Nat}
    (hf : s.ringDistance d.pos d.wp ≤ fuel) :
    ∃ stop, (State.drainLoop fuel s).drain =
      some { wp := d.wp, pos := d.wp, stop := stop, ws := d.ws } := by
  induction fuel generalizing s d with
  | zero =>
    have := (ringDistance_eq_zero s hp hw).mp (by omega)
    exact ⟨d.stop, by cases d; simp_all [State.drainLoop]⟩
  | succ k ih =>
    unfold State.drainLoop
    by_cases hd : d.pos = d.wp
    · have : s.drained = true := by simp [State.drained, h, hd]
      exact ⟨d.stop, by rw [if_pos this, h]; cases d; simp_all⟩
    · have : ¬ s.drained = true := by simp [State.drained, h, hd]
      rw [if_neg this]
      obtain ⟨stop, -, hs⟩ := deliverNext_drain h
      have hdist := ringDistance_nextIndex s hp hw hd
      have := ih hs (by simpa using nextIndex_lt s d.pos) (by simpa using hw)
        (by simp only [State.ringDistance, deliverNext_params] at hdist hf ⊢; omega)
      simpa using this

/-! ## The transmit gate -/

/-- What `BEGIN` can do (R198): a refused transfer changes nothing. -/
theorem begun_cases (cmd : Bool) (br : Br) (now : Time) (data : List Byte) (s : State) :
    (br = .ok ∧ s.begun cmd br now data =
      (if cmd then s.recordPending now data else s).startTransfer now data) ∨
    (br ≠ .ok ∧ s.begun cmd br now data = s) := by
  cases br <;> simp [State.begun]

/-- What `SEND` can do (R197). -/
theorem send_cases (cmd : Bool) (br : Br) (now : Time) (data : List Byte) (s : State) :
    (s.inFlight = true ∧ s.send cmd br now data = (s.raise .busy).emit (.res .busy)) ∨
    (s.inFlight = false ∧ br = .ok ∧ s.send cmd br now data =
      ((if cmd then s.recordPending now data else s).startTransfer now data).emit (.res .ok)) ∨
    (s.inFlight = false ∧ br ≠ .ok ∧ s.send cmd br now data = s.emit (.res .busy)) := by
  unfold State.send
  cases h : s.inFlight
  · cases br <;> simp [State.begun, beginResult]
  · simp

/-- What the keep-alive of an elapsed period can do (R207, R210). -/
theorem keepAlive_cases (br : Br) (now : Time) (s : State) :
    ((s.inFlight = true ∨ br ≠ .ok) ∧ s.keepAlive br now = s) ∨
    (s.inFlight = false ∧ br = .ok ∧ s.keepAlive br now =
      (s.recordPending now s.params.kaText).startTransfer now s.params.kaText) := by
  unfold State.keepAlive
  cases h : s.inFlight
  · cases br <;> simp [State.begun]
  · simp

/-- What a scheduler tick can do (R207). -/
theorem schedulerTick_cases (br : Br) (now : Time) (s : State) :
    (s.elapsed now = false ∧ s.schedulerTick br now = s) ∨
    (s.elapsed now = true ∧ (s.inFlight = true ∨ br ≠ .ok) ∧
      s.schedulerTick br now = { s with schedRef := now }) ∨
    (s.elapsed now = true ∧ s.inFlight = false ∧ br = .ok ∧ s.schedulerTick br now =
      (s.recordPending now s.params.kaText).startTransfer now s.params.kaText) := by
  unfold State.schedulerTick
  cases he : s.elapsed now
  · exact .inl ⟨rfl, rfl⟩
  · rcases keepAlive_cases br now s with ⟨h1, h2⟩ | ⟨h1, h2, h3⟩
    · exact .inr (.inl ⟨rfl, h1, by rw [if_pos rfl, h2]⟩)
    · exact .inr (.inr ⟨rfl, h1, h2, by rw [if_pos rfl, h3]; rfl⟩)

end Sys2Proof.Machine
end

