-- ==== Sys2Proof/Laws/PerInstr.lean ====
section
/-! SUPPORT. Statements about every event as syntax, one lemma for each constructor of `Instr`. -/

namespace Sys2Proof.Laws

/-- The length of an event in bytes (R91, R98): 1, 2, 6, or 7 and the data bytes. -/
def eventLength : Instr → Nat
  | .reset => 1
  | .start => 1
  | .rxbyte _ => 2
  | .idle => 1
  | .txdone => 1
  | .idle1 => 1
  | .idle2 => 1
  | .idle3 => 1
  | .sendd _ _ data => 7 + data.length
  | .sendc _ _ data => 7 + data.length
  | .poll _ _ => 6

theorem encodeSend_length (op : Byte) (br : Br) (now : Time) (data : List Byte) :
    (encodeSend op br now data).length = 7 + data.length := by
  simp [encodeSend, encodeTime]; omega

theorem lenLegal_le (p : Config.Params) (data : List Byte) (h : Instr.lenLegal p data = true) :
    data.length ≤ 255 := by
  have hp := p.txMax_le
  simp [Instr.lenLegal] at h
  omega

/-- R91: the encoding of an event has the length of its format. -/
def EncodeLength.Statement (i : Instr) : Prop := (encode i).length = eventLength i

theorem EncodeLength.reset : EncodeLength.Statement .reset := rfl
theorem EncodeLength.start : EncodeLength.Statement .start := rfl
theorem EncodeLength.rxbyte (b : Byte) : EncodeLength.Statement (.rxbyte b) := rfl
theorem EncodeLength.idle : EncodeLength.Statement .idle := rfl
theorem EncodeLength.txdone : EncodeLength.Statement .txdone := rfl
theorem EncodeLength.idle1 : EncodeLength.Statement .idle1 := rfl
theorem EncodeLength.idle2 : EncodeLength.Statement .idle2 := rfl
theorem EncodeLength.idle3 : EncodeLength.Statement .idle3 := rfl
theorem EncodeLength.sendd (br : Br) (now : Time) (data : List Byte) :
    EncodeLength.Statement (.sendd br now data) := encodeSend_length _ _ _ _
theorem EncodeLength.sendc (br : Br) (now : Time) (data : List Byte) :
    EncodeLength.Statement (.sendc br now data) := encodeSend_length _ _ _ _
theorem EncodeLength.poll (br : Br) (now : Time) : EncodeLength.Statement (.poll br now) := rfl

/-- R97, R7: the length field of a legal event fits its byte, whatever the parameters. -/
def LegalFitsField.Statement (i : Instr) : Prop :=
  ∀ p : Config.Params, i.wellFormed p = true → i.encodable = true

theorem LegalFitsField.reset : LegalFitsField.Statement .reset := fun _ _ => rfl
theorem LegalFitsField.start : LegalFitsField.Statement .start := fun _ _ => rfl
theorem LegalFitsField.rxbyte (b : Byte) : LegalFitsField.Statement (.rxbyte b) := fun _ _ => rfl
theorem LegalFitsField.idle : LegalFitsField.Statement .idle := fun _ _ => rfl
theorem LegalFitsField.txdone : LegalFitsField.Statement .txdone := fun _ _ => rfl
theorem LegalFitsField.idle1 : LegalFitsField.Statement .idle1 := fun _ _ => rfl
theorem LegalFitsField.idle2 : LegalFitsField.Statement .idle2 := fun _ _ => rfl
theorem LegalFitsField.idle3 : LegalFitsField.Statement .idle3 := fun _ _ => rfl
theorem LegalFitsField.sendd (br : Br) (now : Time) (data : List Byte) :
    LegalFitsField.Statement (.sendd br now data) :=
  fun p h => decide_eq_true (lenLegal_le p data h)
theorem LegalFitsField.sendc (br : Br) (now : Time) (data : List Byte) :
    LegalFitsField.Statement (.sendc br now data) :=
  fun p h => decide_eq_true (lenLegal_le p data h)
theorem LegalFitsField.poll (br : Br) (now : Time) : LegalFitsField.Statement (.poll br now) :=
  fun _ _ => rfl

end Sys2Proof.Laws
end

