-- ==== Sys2Proof/Tests/Slice0.lean ====
section
/-! SUPPORT. Tests of single events, with the expected results taken from the spec's examples and vectors,
and for each statement with hypotheses a witness: concrete values that meet them all. -/

namespace Sys2Proof.Tests

open Sys2Proof Sys2Proof.Machine

/-! ## Helpers -/

/-- The state an event leaves; the state itself where it leaves none. -/
def after (i : Instr) (s : State) : State :=
  match exec i s with
  | .next t => t
  | .fault _ => s
  | .refused _ => s

/-- An armed block after reset, with any parameters and any trace to come. -/
def armedBlock (p : Config.Params) (stream : List Byte) : State :=
  { State.initial p stream 0 false with armed := true }

/-- The armed block of the vectors. -/
def armed : State := armedBlock Config.defaultParams []

/-- A ring of the vectors' block with 58 59 at 6, 7 and 0D 0A 41 42 at 0 .. 3 (R145's example); the
twelve bytes stored so far have filled the other indices too. -/
def wrapped : State :=
  { armed with remaining := 4, consumed := 6, rxSeen := true, wTotal := 12, cTotal := 6,
               ring := [(0, 0x0D), (1, 0x0A), (2, 0x41), (3, 0x42), (4, 0x30), (5, 0x31), (6, 0x58),
                        (7, 0x59)] }

/-- The same block in a drain at index `pos` that has `cursor` bytes of `bytes` assembled. -/
def draining (pos cursor : Nat) (stop : Bool) (asm : Memory) : State :=
  { wrapped with drain := some { wp := 4, pos := pos, stop := stop, ws := 12 },
                 rxSeen := false, cursor := cursor, asm := asm }

/-- A block that sends "AT" as a command: gate closed, command pending. -/
def sending : State := after (.sendc .ok 5 [0x41, 0x54, 0x0D, 0x0A]) armed

/-- The vectors' parameters with a larger ring. -/
def largeRing : Config.Params :=
  { Config.defaultParams with capacity := 10, capacity_pos := by decide, capacity_le := by decide }

/-! ## Well-formedness: each check refuses an ill-formed event (R97, R99 (c)) -/

theorem test_wellFormed_accepts_one_byte :
    (Instr.sendd .ok 0 [0x41]).wellFormed Config.defaultParams = true := by decide

theorem test_wellFormed_refuses_empty_data :
    (Instr.sendd .ok 0 []).wellFormed Config.defaultParams = false := by decide

theorem test_wellFormed_accepts_TX_MAX_bytes :
    (Instr.sendc .ok 0 (List.replicate 16 0x41)).wellFormed Config.defaultParams = true := by decide

theorem test_wellFormed_refuses_TX_MAX_plus_one :
    (Instr.sendc .ok 0 (List.replicate 17 0x41)).wellFormed Config.defaultParams = false := by decide

theorem test_encodable_refuses_256_bytes (data : List Byte) (h : data.length = 256) :
    (Instr.sendd .ok 0 data).encodable = false := by simp [Instr.encodable, h]

/-! ## Decoding: every event from its bits as R91 and R92 give them -/

theorem test_decode_reset : decodeEvent [0b00000000] = .event .reset [] := by decide

theorem test_decode_start : decodeEvent [0b00000001] = .event .start [] := by decide

theorem test_decode_rxbyte : decodeEvent [0b00010000, 0b01000001] = .event (.rxbyte 0x41) [] := by
  decide

theorem test_decode_idle : decodeEvent [0b00100000] = .event .idle [] := by decide

theorem test_decode_txdone : decodeEvent [0b00100001] = .event .txdone [] := by decide

theorem test_decode_idle1 : decodeEvent [0b00100010] = .event .idle1 [] := by decide

theorem test_decode_idle2 : decodeEvent [0b00100011] = .event .idle2 [] := by decide

theorem test_decode_idle3 : decodeEvent [0b00100100] = .event .idle3 [] := by decide

/-- `env[1:0]` = 01b is busy; `now` is little-endian: 0x000003E8 = 1000 (R95, R96). -/
theorem test_decode_sendd :
    decodeEvent [0b00110000, 0b00000001, 0b11101000, 0b00000011, 0b00000000, 0b00000000,
      0b00000010, 0b01001111, 0b01001011, 0b00100000] =
      .event (.sendd .busy 1000 [0x4F, 0x4B]) [0x20] := by decide

theorem test_decode_sendc :
    decodeEvent [0b00110001, 0b00000000, 0b00000101, 0b00000000, 0b00000000, 0b10000000,
      0b00000001, 0b01000001] = .event (.sendc .ok 0x80000005 [0x41]) [] := by decide

theorem test_decode_poll :
    decodeEvent [0b00110010, 0b00000010, 0b11101000, 0b00000011, 0b00000000, 0b00000000] =
      .event (.poll .error 1000) [] := by decide

/-- R99 (d): a send cut short is everything that is left, also when its `env` is reserved. -/
theorem test_decode_truncated_send :
    decodeEvent [0x30, 0x04, 0x00, 0x00, 0x00, 0x00, 0x02, 0x41] = .invalid .truncated [] := by decide

/-- R97: a send of length 0 still occupies its seven bytes. -/
theorem test_decode_empty_send :
    decodeEvent [0x31, 0x00, 0x00, 0x00, 0x00, 0x00, 0x00, 0x21] =
      .event (.sendc .ok 0 []) [0x21] := by decide

theorem test_decodeTableWord_rxbyte : decodeTableWord 16 0x4110 = some (.rxbyte 0x41) := by decide

theorem test_decodeTableWord_poll :
    decodeTableWord 48 0x0000000003E80232 = some (.poll .error 1000) := by decide

theorem test_decodeTableWord_reserved : decodeTableWord 8 0x02 = none := by decide

/-- R105's example lines. -/
theorem test_parse_sendc_line :
    parseLine ['S', 'E', 'N', 'D', 'C', ' ', 'n', 'o', 'w', '=', '5', ' ', 'b', 'r', '=', 'b', 'u',
      's', 'y', ' ', '"', 'O', '\\', 'r', '\\', 'x', '0', 'a', '"', ' ', ';'] =
      some (.event (.sendc .busy 5 [0x4F, 0x0D, 0x0A])) := by decide

theorem test_parse_rxbyte_line :
    parseLine ['R', 'X', 'B', 'Y', 'T', 'E', ' ', '0', 'x', '4', '1'] =
      some (.event (.rxbyte 0x41)) := by decide

/-! ## One step each -/

/-- R270: `out` empty, `remaining` = CAPACITY, gate open, nothing pending. -/
theorem test_reset_clears :
    (after .reset sending).out = [] ∧ (after .reset sending).remaining = 8 ∧
      (after .reset sending).inFlight = false ∧ (after .reset sending).pendValid = false := by decide

/-- R122's example. -/
theorem test_start_arms :
    (after .start State.reset).armed = true ∧ (after .start State.reset).remaining = 8 ∧
      (after .start State.reset).writePos = 0 := by decide

/-- R123's example: `remaining` = 2, so the byte goes to index 6. -/
theorem test_rxbyte_stores :
    (after (.rxbyte 0x58) { armed with remaining := 2 }).ring = [(6, 0x58)] ∧
      (after (.rxbyte 0x58) { armed with remaining := 2 }).remaining = 1 := by decide

/-- R123's example, corner case (a): the last index of the pass. -/
theorem test_rxbyte_reloads :
    (after (.rxbyte 0x59) { armed with remaining := 1 }).ring = [(7, 0x59)] ∧
      (after (.rxbyte 0x59) { armed with remaining := 1 }).remaining = 8 ∧
      (after (.rxbyte 0x59) { armed with remaining := 1 }).writePos = 0 := by decide

/-- R145's example: the span 6, 7, 0, 1, 2, 3 emits "XY" and drops "AB". -/
theorem test_idle_wraps :
    (after .idle wrapped).out = [.msg [0x58, 0x59]] ∧ (after .idle wrapped).consumed = 4 ∧
      (after .idle wrapped).cursor = 0 := by decide

/-- The same under CONTINUE (R152, R165): the rest of the span is assembled. -/
theorem test_idle_continues :
    (after .idle { wrapped with params :=
        { Config.defaultParams with scanPolicy := .continueScan } }).cursor = 2 := by decide

/-- R146's example. -/
theorem test_idle1_samples :
    (after .idle1 wrapped).drain = some { wp := 4, pos := 6, stop := false, ws := 12 } ∧
      (after .idle1 wrapped).rxSeen = false := by decide

/-- R147's example: `pos` = 7, `ring[7]` = 0x59. -/
theorem test_idle2_delivers :
    (after .idle2 (draining 7 1 false [(0, 0x58)])).asm = [(0, 0x58), (1, 0x59)] ∧
      (after .idle2 (draining 7 1 false [(0, 0x58)])).drain =
        some { wp := 4, pos := 0, stop := false, ws := 12 } := by decide

/-- R163: the line-feed at index 1 completes "X": cut, terminated both ways, forwarded, scan stopped. -/
theorem test_idle2_completes :
    (after .idle2 (draining 1 2 false [(0, 0x58), (1, 0x0D)])).out = [.msg [0x58]] ∧
      (after .idle2 (draining 1 2 false [(0, 0x58), (1, 0x0D)])).asm =
        [(0, 0x58), (1, 0x00), (2, 0x0A)] ∧
      (after .idle2 (draining 1 2 false [(0, 0x58), (1, 0x0D)])).drain =
        some { wp := 4, pos := 2, stop := true, ws := 12 } := by decide

/-- R149's example. -/
theorem test_idle3_advances :
    (after .idle3 (draining 4 0 true [])).consumed = 4 ∧
      (after .idle3 (draining 4 0 true [])).drain = none := by decide

/-- R204's example. -/
theorem test_txdone_opens : (after .txdone sending).inFlight = false := by decide

/-- R200's example. -/
theorem test_sendd_starts :
    (after (.sendd .ok 5 [0x4F, 0x4B, 0x0D, 0x0A]) armed).txBuf =
        [(0, 0x4F), (1, 0x4B), (2, 0x0D), (3, 0x0A)] ∧
      (after (.sendd .ok 5 [0x4F, 0x4B, 0x0D, 0x0A]) armed).out =
        [.txstart [0x4F, 0x4B, 0x0D, 0x0A], .res .ok] ∧
      (after (.sendd .ok 5 [0x4F, 0x4B, 0x0D, 0x0A]) armed).pendValid = false := by decide

/-- R201's example. -/
theorem test_sendc_records :
    sending.pendText = [(0, 0x41), (1, 0x54), (2, 0x0D), (3, 0x0A)] ∧ sending.pendLen = 4 ∧
      sending.pendTime = 5 ∧ sending.pendValid = true ∧ sending.schedRef = 5 := by decide

/-- R197: a send through a closed gate changes nothing but the log. -/
theorem test_sendc_busy :
    (after (.sendc .ok 9 [0x42]) sending).out = sending.out ++ [.res .busy] ∧
      (after (.sendc .ok 9 [0x42]) sending).txBuf = sending.txBuf ∧
      (after (.sendc .ok 9 [0x42]) sending).schedRef = 5 := by decide

/-- R207's example: 999 does nothing. -/
theorem test_poll_waits : after (.poll .ok 999) armed = armed := by decide

/-- R207's example: 1000 sends KA_TEXT. -/
theorem test_poll_sends :
    (after (.poll .ok 1000) armed).out = [.txstart [0x41, 0x54, 0x0D, 0x0A]] ∧
      (after (.poll .ok 1000) armed).schedRef = 1000 := by decide

/-- The step decodes and applies the word placed before it. -/
theorem test_step_runs_placed_word :
    (match step (State.reset.withFetchWord 8 0x01) with
      | .next t => t.armed
      | .fault _ => false
      | .refused _ => false) = true := by decide

/-! ## The environment premises of R284 -/

/-- (a), R272: sends are allowed before `START`, bytes of interest are not. -/
theorem test_premiseBoot :
    let bytes : Instr → Bool := fun i => decide (i.agent = .P)
    premiseBoot bytes [.reset, .sendc .ok 0 [0x41], .start, .rxbyte 0x41] = true ∧
      premiseBoot bytes [.reset, .rxbyte 0x41, .start] = false ∧
      premiseBoot bytes [.reset, .start, .start] = false := by decide

/-- (b): a transfer whose completion never comes, comes, comes twice. -/
theorem test_premiseCompletionAll :
    premiseCompletionAll [] sending = false ∧ premiseCompletionAll [.txdone] sending = true ∧
      premiseCompletionAll [.txdone, .txdone] sending = false := by decide

/-- (b), V81: a completion that arrives after `RESET` is for no record. -/
theorem test_premiseCompletion_after_reset :
    holdsAlong premiseCompletion [.reset, .txdone, .start, .sendd .ok 6 [0x78]] sending = false ∧
      holdsAlong premiseCompletion [.reset, .start, .sendd .ok 6 [0x78], .txdone] sending = true := by
  decide

/-- (d), V62: `now` wraps through 2^32. -/
theorem test_premiseTime_wraps :
    premiseTime Config.defaultParams none none [0xFFFFFF00, 0xFFFFFFFF, 0x1000002E7, 0x1000002E8]
      [.sendd .ok 0xFFFFFF00 [0x78], .txdone, .poll .ok 0xFFFFFFFF, .poll .ok 0x000002E7,
        .poll .ok 0x000002E8] = true := by decide

/-- (d), V66: time moving backwards breaks the premise, whatever the clock is said to have been. -/
theorem test_premiseTime_backwards (a b : Nat) :
    premiseTime Config.defaultParams none none [a, b]
      [.sendd .ok 5000 [0x78], .txdone, .poll .ok 4000] = false := by
  have h1 : (5000 : Time) = BitVec.ofNat 32 a ↔ a % 2 ^ 32 = 5000 := by
    rw [← BitVec.toNat_inj, BitVec.toNat_ofNat]; exact eq_comm
  have h2 : (4000 : Time) = BitVec.ofNat 32 b ↔ b % 2 ^ 32 = 4000 := by
    rw [← BitVec.toNat_inj, BitVec.toNat_ofNat]; exact eq_comm
  simp only [premiseTime, Instr.time?, Instr.isPoll, Config.defaultParams, h1, h2]
  simp
  omega

/-- (d): a bound that a send between two polls does not lift. -/
theorem test_premiseTime_between_polls :
    premiseTime Config.defaultParams none none [0, 0x80000000, 0xFFFFFFFE]
      [.poll .ok 0, .sendc .ok 0x80000000 [0x41], .poll .ok 0xFFFFFFFE] = false ∧
    premiseTime Config.defaultParams none none [0, 0x80000000, 0x80000001]
      [.poll .ok 0, .sendc .ok 0x80000000 [0x41], .poll .ok 0x80000001] = true := by decide

/-! ## States that meet the invariants -/

/-- An armed block that has received nothing meets the invariants, whatever its parameters. -/
theorem armedBlock_inv (p : Config.Params) (stream : List Byte) : Inv (armedBlock p stream) := by
  have h1 := p.capacity_pos
  have h2 := p.maxLen_ge
  constructor <;> simp [armedBlock, State.initial, State.writePos, State.written]
  · exact h1
  · exact h1
  · intro a; cases a <;> rfl
  · intro a i; cases a <;> simp [State.array]

/-- A drain half done, with a message half assembled. -/
def halfDone : State := draining 7 1 false [(0, 0x58)]

theorem halfDone_inv : Inv halfDone := by
  have hd : ∀ d, halfDone.drain = some d → d = { wp := 4, pos := 7, stop := false, ws := 12 } :=
    fun d h => (Option.some.inj h).symm
  constructor
  case drain_ok =>
    intro d h
    rw [hd d h]
    exact ⟨by decide, by decide, by decide, by decide, by decide, fun _ => rfl⟩
  case no_terminator =>
    intro i h1 h2
    have : i < 1 := h2
    omega
  case arrays_wf => intro a; cases a <;> rfl
  case arrays_bounded =>
    intro a i h
    cases a
    · show i < 8
      by_contra hi
      have : ∀ k, k < 8 → i ≠ k := fun k hk => by omega
      simp [State.written, State.array, halfDone, draining, wrapped, Memory.get?, this] at h
    · show i < 8
      by_contra hi
      have : i ≠ 0 := by omega
      simp [State.written, State.array, halfDone, draining, Memory.get?, this] at h
    · cases h
    · cases h
  case ring_written =>
    intro i h1 _
    have h : i < 8 := h1
    have : ∀ k, k < 8 → (halfDone.ring.get? k).isSome = true := by decide
    exact this i h
  case asm_written =>
    intro i h1
    have h : i < 1 := h1
    have : ∀ k, k < 1 → (halfDone.asm.get? k).isSome = true := by decide
    exact this i h
  case out_wf => intro r h; cases h
  case unarmed => intro h; cases h
  case quiet => intro _ h; cases h
  case pend_written => intro h; cases h
  case tx_written => intro h; cases h
  all_goals decide

/-! ## Witnesses: concrete values that meet the hypotheses of each statement, clause by clause -/

theorem witness_StartArmsReceiver_unarmed :
    State.reset.armed = false ∧ State.reset.drain = none := by decide

theorem witness_StartArmsReceiver_armed : armed.armed = true ∨ armed.drain ≠ none := by decide

theorem witness_StartArmsReceiver_draining :
    ({ halfDone with armed := false } : State).armed = true ∨ halfDone.drain ≠ none := by decide

theorem witness_RxbyteStoresReceivedByte_armed : armed.armed = true := by decide

theorem witness_RxbyteStoresReceivedByte_unarmed : State.reset.armed = false := by decide

theorem witness_RxbyteWritesOneElement : wrapped.armed = true := by decide

theorem witness_RxbyteAdvancesWritePosition_first :
    armed.armed = true ∧ 1 ≤ armed.remaining ∧ armed.remaining = armed.params.capacity := by decide

theorem witness_RxbyteAdvancesWritePosition_last :
    ({ armed with remaining := 1 } : State).armed = true ∧ 1 ≤ 1 ∧ 1 ≤ armed.params.capacity := by
  decide

/-- An empty unread region at the last index of the ring. -/
theorem witness_BurstDeliversNewestBytes :
    let s : State := { armed with remaining := 1, consumed := 7 }
    s.armed = true ∧ s.drain = none ∧ 1 ≤ s.remaining ∧ s.remaining ≤ s.params.capacity ∧
      s.consumed = s.writePos := by decide

theorem witness_SubSpansMakeTheSpan_empty :
    wrapped.consumed < wrapped.params.capacity ∧ 6 < wrapped.params.capacity ∧
      6 = wrapped.consumed := by decide

theorem witness_SubSpansMakeTheSpan_contiguous :
    wrapped.consumed < wrapped.params.capacity ∧ 7 < wrapped.params.capacity ∧
      wrapped.consumed < 7 := by decide

theorem witness_SubSpansMakeTheSpan_tail :
    wrapped.consumed < wrapped.params.capacity ∧ 0 < wrapped.params.capacity ∧
      0 < wrapped.consumed := by decide

theorem witness_SubSpansMakeTheSpan_two_parts :
    wrapped.consumed < wrapped.params.capacity ∧ 5 < wrapped.params.capacity ∧
      5 < wrapped.consumed := by decide

theorem witness_Idle1SamplesWritePosition : wrapped.drain = none := by decide

theorem witness_Idle2SkipsWhenStopped :
    (draining 7 0 true []).drain = some { wp := 4, pos := 7, stop := true, ws := 12 } ∧ 7 ≠ 4 := by
  decide

/-- Room for one byte more, the last index of the ring. -/
theorem witness_Idle2AppendsOrdinaryByte :
    let s := draining 7 7 false [(6, 0x0D)]
    s.drain = some { wp := 4, pos := 7, stop := false, ws := 12 } ∧ 7 ≠ 4 ∧
      7 < s.params.capacity ∧ s.cursor < s.params.maxLen ∧
      ¬(1 ≤ s.cursor ∧ s.elem .asm (s.cursor - 1) = 0x0D ∧ s.elem .ring 7 = 0x0A) := by decide

theorem witness_Idle2OverflowClearsAssembler :
    let s := draining 7 8 false []
    s.drain = some { wp := 4, pos := 7, stop := false, ws := 12 } ∧ 7 ≠ 4 ∧
      s.cursor = s.params.maxLen := by decide

/-- The empty message (R167). -/
theorem witness_Idle2CompletesMessage_empty :
    let s := draining 1 1 false [(0, 0x0D)]
    s.drain = some { wp := 4, pos := 1, stop := false, ws := 12 } ∧ 1 ≠ 4 ∧
      1 < s.params.capacity ∧ 1 ≤ s.cursor ∧ s.cursor < s.params.maxLen ∧
      s.pendLen ≤ s.params.txMax ∧ s.elem .asm (s.cursor - 1) = 0x0D ∧ s.elem .ring 1 = 0x0A := by decide

/-- A pending command "X" and its echo. -/
theorem witness_Idle2CompletesMessage_echo :
    let s : State := { draining 1 2 false [(0, 0x58), (1, 0x0D)] with
      pendValid := true, pendLen := 3, pendText := [(0, 0x58), (1, 0x0D), (2, 0x0A)] }
    s.pendLen ≤ s.params.txMax ∧
      (s.pendValid && matchEcho s.params.echoPolicy (s.prefixBytes .asm (s.cursor - 1))
        (stripTerminator (s.prefixBytes .pendText s.pendLen))) = true := by decide

/-- A pending command "Y", which the message "X" does not match. -/
theorem witness_Idle2CompletesMessage_other :
    let s : State := { draining 1 2 false [(0, 0x58), (1, 0x0D)] with
      pendValid := true, pendLen := 1, pendText := [(0, 0x59)] }
    s.pendLen ≤ s.params.txMax ∧ s.pendValid = true ∧
      (s.pendValid && matchEcho s.params.echoPolicy (s.prefixBytes .asm (s.cursor - 1))
        (stripTerminator (s.prefixBytes .pendText s.pendLen))) = false := by decide

/-- The longest message (R169): the line-feed goes to the last index of the assembler. -/
theorem witness_Idle2CompletesMessage_longest :
    let s := draining 1 7 false [(6, 0x0D)]
    s.drain = some { wp := 4, pos := 1, stop := false, ws := 12 } ∧ 1 ≠ 4 ∧
      1 < s.params.capacity ∧ 1 ≤ s.cursor ∧ s.cursor < s.params.maxLen ∧
      s.pendLen ≤ s.params.txMax ∧ s.elem .asm (s.cursor - 1) = 0x0D ∧ s.elem .ring 1 = 0x0A := by decide

theorem witness_Idle2StoresOnlyInAssembler_stopped :
    (draining 7 0 true []).drain = some { wp := 4, pos := 7, stop := true, ws := 12 } ∧ 7 ≠ 4 ∧
      7 < (draining 7 0 true []).params.capacity := by decide

theorem witness_Idle2StoresOnlyInAssembler_appending :
    halfDone.drain = some { wp := 4, pos := 7, stop := false, ws := 12 } ∧ 7 ≠ 4 ∧
      7 < halfDone.params.capacity ∧ halfDone.cursor < halfDone.params.maxLen ∧ 0 ≠ halfDone.cursor ∧
      (halfDone.elem .asm (halfDone.cursor - 1) = 0x0D → halfDone.elem .ring 7 = 0x0A →
        0 + 1 ≠ halfDone.cursor) := by decide

theorem witness_Idle2StoresOnlyInAssembler_completing :
    let s := draining 1 7 false [(6, 0x0D)]
    s.drain = some { wp := 4, pos := 1, stop := false, ws := 12 } ∧ 1 ≠ 4 ∧
      1 < s.params.capacity ∧ s.cursor < s.params.maxLen ∧ 5 ≠ s.cursor ∧
      (s.elem .asm (s.cursor - 1) = 0x0D → s.elem .ring 1 = 0x0A → 5 + 1 ≠ s.cursor) ∧
      s.elem .asm (s.cursor - 1) = 0x0D ∧ s.elem .ring 1 = 0x0A ∧ s.params.maxLen ≤ 8 := by decide

/-- The first index outside the assembler, with the assembler full. -/
theorem witness_Idle2StoresOnlyInAssembler_overflowing :
    let s := draining 7 8 false []
    s.drain = some { wp := 4, pos := 7, stop := false, ws := 12 } ∧ 7 ≠ 4 ∧
      7 < s.params.capacity ∧ s.cursor = s.params.maxLen ∧ s.params.maxLen ≤ s.cursor := by decide

theorem witness_Idle3AdvancesConsumed :
    (draining 4 0 true []).drain = some { wp := 4, pos := 4, stop := true, ws := 12 } ∧ 4 = 4 := by
  decide

theorem witness_IdleDeliversSpanInOrder :
    wrapped.drain = none ∧ wrapped.consumed < wrapped.params.capacity := by decide

theorem witness_IdleEmptySpanDeliversNothing :
    armed.drain = none ∧ armed.writePos = armed.consumed := by decide

theorem witness_DrainMicroStepsEqualIdle :
    wrapped.drain = none ∧ wrapped.consumed < wrapped.params.capacity ∧ wrapped.unreadLen = 6 := by
  decide

theorem witness_SpuriousIdleChangesNothing :
    Inv armed ∧ armed.drain = none ∧ armed.rxSeen = false :=
  ⟨armedBlock_inv _ _, rfl, rfl⟩

/-- A span of 6 bytes and 2 bytes stored before it is read: as many as R74 allows. -/
theorem witness_ShortDrainIsAtomic :
    let mid : List Instr := [.idle2, .rxbyte 0x0D, .idle2, .idle2, .rxbyte 0x0A, .idle2, .idle2, .idle2]
    wrapped.drain = none ∧ wrapped.consumed < wrapped.params.capacity ∧ 1 ≤ wrapped.remaining ∧
      wrapped.remaining ≤ wrapped.params.capacity ∧ (∀ i ∈ mid, i = .idle2 ∨ i.agent = .P) ∧
      mid.countP (fun i => decide (i = .idle2)) = wrapped.unreadLen ∧
      mid.countP (fun i => decide (i.agent = .P)) < wrapped.params.capacity - wrapped.unreadLen + 1 := by
  decide

/-- No list of one byte holds a terminator. -/
theorem no_terminator_of_one_byte (b : Byte) (k : Nat) :
    ¬([b][k]? = some (0x0D : Byte) ∧ [b][k + 1]? = some (0x0A : Byte)) := by
  intro h
  simpa using h.2

/-- No list of one repeated byte holds a terminator. -/
theorem no_terminator_of_repeat (b : Byte) (n k : Nat) :
    ¬((List.replicate n b)[k]? = some (0x0D : Byte) ∧
      (List.replicate n b)[k + 1]? = some (0x0A : Byte)) := by
  simp only [List.getElem?_replicate]
  intro h
  split at h <;> split at h <;> simp at h
  exact absurd (h.1.symm.trans h.2) (by decide)

/-- The longest line one burst may carry in a ring of 8. -/
theorem witness_TerminatedLineBecomesOneMessage :
    let text : List Byte := List.replicate 5 0x41
    Inv armed ∧ armed.armed = true ∧ armed.drain = none ∧ armed.consumed = armed.writePos ∧
      armed.cursor = 0 ∧ text.length + 2 < armed.params.capacity ∧
      text.length + 2 ≤ armed.params.maxLen ∧
      ∀ k, ¬(text[k]? = some (0x0D : Byte) ∧ text[k + 1]? = some (0x0A : Byte)) :=
  ⟨armedBlock_inv _ _, rfl, rfl, rfl, rfl, by decide, by decide, no_terminator_of_repeat _ _⟩

theorem witness_OversizeBurstYieldsNoMessage :
    let s := armedBlock largeRing []
    let bs : List Byte := List.replicate 9 0x0D
    Inv s ∧ s.armed = true ∧ s.drain = none ∧ s.consumed = s.writePos ∧ s.cursor = 0 ∧
      bs.length = s.params.maxLen + 1 ∧ bs.length < s.params.capacity ∧
      ∀ k, ¬(bs[k]? = some (0x0D : Byte) ∧ bs[k + 1]? = some (0x0A : Byte)) :=
  ⟨armedBlock_inv _ _, rfl, rfl, rfl, rfl, by decide, by decide, no_terminator_of_repeat _ _⟩

/-- Half a terminator is none. -/
theorem witness_StripRemovesOneTerminator :
    ¬ ∃ q : List Byte, [(0x0A : Byte)] = q ++ [0x0D, 0x0A] := by
  rintro ⟨q, h⟩
  have := congrArg List.length h
  simp at this

theorem witness_OwnEchoIsSuppressed :
    let text : List Byte := [0x41]
    Inv armed ∧ armed.armed = true ∧ armed.drain = none ∧ armed.inFlight = false ∧
      armed.consumed = armed.writePos ∧ armed.cursor = 0 ∧
      text.length + 2 < armed.params.capacity ∧ text.length + 2 ≤ armed.params.maxLen ∧
      text.length + 2 ≤ armed.params.txMax ∧
      ∀ k, ¬(text[k]? = some (0x0D : Byte) ∧ text[k + 1]? = some (0x0A : Byte)) :=
  ⟨armedBlock_inv _ _, rfl, rfl, rfl, rfl, rfl, by decide, by decide, by decide,
    no_terminator_of_one_byte _⟩

/-- An open gate and the shortest data: `SENDD`, `SENDC` and a started send. -/
theorem witness_SenddFollowsGate_open :
    armed.drain = none ∧ 1 ≤ [(0x41 : Byte)].length ∧
      [(0x41 : Byte)].length ≤ armed.params.txMax ∧ armed.inFlight = false := by decide

/-- A closed gate and the longest data. -/
theorem witness_SenddFollowsGate_closed :
    sending.drain = none ∧ 1 ≤ (List.replicate 16 (0x41 : Byte)).length ∧
      (List.replicate 16 (0x41 : Byte)).length ≤ sending.params.txMax ∧ sending.inFlight = true := by
  decide

theorem witness_SendcFollowsGate_open :
    armed.drain = none ∧ 1 ≤ (List.replicate 16 (0x41 : Byte)).length ∧
      (List.replicate 16 (0x41 : Byte)).length ≤ armed.params.txMax ∧ armed.inFlight = false := by
  decide

theorem witness_SendcFollowsGate_closed :
    sending.drain = none ∧ 1 ≤ [(0x41 : Byte)].length ∧
      [(0x41 : Byte)].length ≤ sending.params.txMax ∧ sending.inFlight = true := by decide

theorem witness_StartedSendStoresOnlyItsData :
    armed.drain = none ∧ armed.inFlight = false ∧ 1 ≤ [(0x41 : Byte)].length ∧
      [(0x41 : Byte)].length ≤ armed.params.txMax := by decide

theorem witness_TxdoneOpensGate : sending.drain = none ∧ sending.inFlight = true := by decide

theorem witness_PollFollowsScheduler_waiting :
    armed.drain = none ∧ ((999 : Time) - armed.schedRef).toNat < armed.params.interval := by decide

theorem witness_PollFollowsScheduler_busy :
    sending.drain = none ∧ sending.params.interval ≤ ((1005 : Time) - sending.schedRef).toNat ∧
      (sending.inFlight = true ∨ Br.ok ≠ .ok) := by decide

theorem witness_PollFollowsScheduler_sending :
    armed.drain = none ∧ armed.params.interval ≤ ((1000 : Time) - armed.schedRef).toNat ∧
      armed.inFlight = false ∧ Br.ok = .ok := by decide

/-- Two polls INTERVAL - 1 apart, across the wrap of `now`. -/
theorem witness_TwoPollsSendAtMostOnce :
    armed.drain = none ∧ ((989 : Time) - 0xFFFFFFF6).toNat < armed.params.interval := by decide

theorem witness_AtMostOneTransferBetweenCompletions :
    ∀ i ∈ [Instr.sendc .ok 0 [0x41], .idle, .sendd .ok 1 [0x42], .poll .ok 1000],
      i ≠ .txdone ∧ i ≠ .reset := by decide

theorem witness_StuckGateKeepsTransfer :
    sending.inFlight = true ∧
      ∀ i ∈ [Instr.sendc .ok 0 [0x41], .idle, .poll .ok 1005], i ≠ .txdone ∧ i ≠ .reset := by decide

theorem witness_OnlySendsAndElapsedPollsMoveReference :
    exec (.poll .busy 1000) armed = .next { armed with schedRef := 1000 } ∧
      ({ armed with schedRef := 1000 } : State).schedRef ≠ armed.schedRef := ⟨rfl, by decide⟩

theorem witness_DisabledEventsAreRejected_in_drain :
    halfDone.drain ≠ none ∧ Instr.txdone ≠ .reset ∧ Instr.txdone.agent ≠ .P ∧
      Instr.txdone ≠ .idle2 ∧ Instr.txdone ≠ .idle3 := by decide

theorem witness_DisabledEventsAreRejected_no_drain : armed.drain = none := by decide

theorem witness_DisabledEventsAreRejected_drained :
    (draining 4 0 false []).drain = some { wp := 4, pos := 4, stop := false, ws := 12 } ∧ 4 = 4 := by
  decide

theorem witness_DisabledEventsAreRejected_not_drained :
    halfDone.drain = some { wp := 4, pos := 7, stop := false, ws := 12 } ∧ 7 ≠ 4 := by decide

theorem witness_DisabledEventsAreRejected_armed : armed.armed = true := by decide

theorem witness_DisabledEventsAreRejected_length :
    armed.params.txMax < (List.replicate 17 (0x41 : Byte)).length ∧
      ([] : List Byte).length = 0 := by decide

theorem witness_ConditionsAreMarkedWhereRaised_overrun :
    let s : State := { armed with wTotal := 8 }
    s.armed = true ∧ s.cTotal + s.params.capacity ≤ s.wTotal := by decide

theorem witness_ConditionsAreMarkedWhereRaised_oversize :
    let s := draining 7 8 false []
    s.drain = some { wp := 4, pos := 7, stop := false, ws := 12 } ∧ 7 ≠ 4 ∧
      s.cursor ≤ s.params.maxLen := by decide

theorem witness_ConditionsAreMarkedWhereRaised_busy :
    sending.drain = none ∧ 1 ≤ [(0x41 : Byte)].length ∧
      [(0x41 : Byte)].length ≤ sending.params.txMax := by decide

theorem witness_GateAgreesWithEnvironment :
    Instr.txdone ≠ .reset ∧ sending.inFlight = sending.txOwed := by decide

theorem witness_ContextsWriteOnlyTheirState :
    (Instr.rxbyte 0x41).agent = .P ∧ Instr.idle.agent = .I ∧ Instr.start.agent = .M ∧
      Instr.poll .ok 0 ≠ .start := by decide

/-- A step that stores a byte. -/
theorem witness_InvKeptByEveryStep :
    let s := armedBlock Config.defaultParams [0x10, 0x41]
    Inv s ∧ step s = .next (after (.rxbyte 0x41) armed) := ⟨armedBlock_inv _ _, rfl⟩

theorem witness_InvHoldsInReachableStates :
    Reachable (State.initial Config.defaultParams [] 1 false) :=
  .afterReset (s := State.reset) rfl

theorem witness_ParametersNeverChange :
    step ({ State.reset with stream := [0x01] } : State) = .next armed := rfl

theorem witness_OutputLogOnlyGrows : Instr.idle2 ≠ .reset := by decide

/-- A drain about to read the ring. -/
theorem witness_UnspecifiedContentsAreNeverObserved : Inv halfDone ∧ Instr.idle2 ≠ .reset :=
  ⟨halfDone_inv, by decide⟩

theorem witness_GhostsAreNeverRead :
    armed.forgetGhosts = ({ armed with wTotal := 8, diag := [.overrun] } : State).forgetGhosts := rfl

theorem witness_StepRunsDecodedEvent :
    decodeEvent ({ armed with stream := [0x10, 0x41, 0x20] } : State).stream =
      .event (.rxbyte 0x41) [0x20] := by decide

theorem witness_StepRejectsInvalidBytes :
    decodeEvent ({ armed with stream := [0xFF, 0x20] } : State).stream =
      .invalid .unknownOpcode [0x20] := by decide

theorem witness_StepAtTraceEndDoesNothing : armed.stream = [] := rfl

/-- Data of the greatest length. -/
theorem witness_DecodeInvertsEncode :
    (Instr.sendd .error 0xFFFFFFFF (List.replicate 16 0xFF)).wellFormed Config.defaultParams = true := by
  decide

theorem witness_EncodingsAreUnique :
    decodeEvent [0x31, 0x02, 0x00, 0x00, 0x00, 0x80, 0x01, 0x41, 0x20] =
      .event (.sendc .error 0x80000000 [0x41]) [0x20] := by decide

theorem witness_StreamDecodesToItsTrace :
    ∀ i ∈ [Instr.reset, .start, .rxbyte 0x41, .sendc .ok 0 [0x41]],
      i.wellFormed Config.defaultParams = true := by decide

/-- The empty and the longest message, the shortest transfer. -/
theorem witness_OutputStreamDeterminesLog :
    ∀ r ∈ [Record.msg [], .msg (List.replicate 6 0x41), .txstart [0x41], .res .busy, .reject],
      r.wellFormed Config.defaultParams = true := by decide

end Sys2Proof.Tests
end

/-! # What a step reads: the block and the parameters, not what travels beside them (R7, R38) -/

namespace Sys2Proof.Machine

/-! ## The arguments of the step: no event changes the parameters or moves the trace -/

@[simp] theorem endDrain_params (s : State) : s.endDrain.params = s.params := by
  unfold State.endDrain; split <;> rfl
@[simp] theorem endDrain_stream (s : State) : s.endDrain.stream = s.stream := by
  unfold State.endDrain; split <;> rfl

@[simp] theorem drainSpan_params (s : State) : s.drainSpan.params = s.params := by
  simp [State.drainSpan]
@[simp] theorem drainSpan_stream (s : State) : s.drainSpan.stream = s.stream := by
  simp [State.drainSpan]

@[simp] theorem send_params (s : State) (cmd : Bool) (br : Br) (now : Time) (data : List Byte) :
    (s.send cmd br now data).params = s.params := by
  rcases send_cases cmd br now data s with ⟨_, h⟩ | ⟨_, _, h⟩ | ⟨_, _, h⟩ <;> cases cmd <;> simp [h]
@[simp] theorem send_stream (s : State) (cmd : Bool) (br : Br) (now : Time) (data : List Byte) :
    (s.send cmd br now data).stream = s.stream := by
  rcases send_cases cmd br now data s with ⟨_, h⟩ | ⟨_, _, h⟩ | ⟨_, _, h⟩ <;> cases cmd <;> simp [h]

@[simp] theorem schedulerTick_params (s : State) (br : Br) (now : Time) :
    (s.schedulerTick br now).params = s.params := by
  rcases schedulerTick_cases br now s with ⟨_, h⟩ | ⟨_, _, h⟩ | ⟨_, _, _, h⟩ <;> simp [h]
@[simp] theorem schedulerTick_stream (s : State) (br : Br) (now : Time) :
    (s.schedulerTick br now).stream = s.stream := by
  rcases schedulerTick_cases br now s with ⟨_, h⟩ | ⟨_, _, h⟩ | ⟨_, _, _, h⟩ <;> simp [h]

@[simp] theorem storeByte_params (s : State) (b : Byte) : (s.storeByte b).params = s.params :=
  noteOverrun_params s
@[simp] theorem storeByte_stream (s : State) (b : Byte) : (s.storeByte b).stream = s.stream :=
  noteOverrun_stream s

/-- An accepted event keeps the arguments if its body does; a rejected one keeps them anyway (R99). -/
theorem accept_args {s t u : State} {enabled : Bool} (h : s.accept enabled t = .next u)
    (hp : t.params = s.params) (hs : t.stream = s.stream) :
    u.params = s.params ∧ u.stream = s.stream := by
  cases enabled <;> cases h
  · exact ⟨reject_params s, reject_stream s⟩
  · exact ⟨hp, hs⟩

/-- R38: the parameters and the trace are arguments of an event, never changed by it. -/
theorem exec_args {i : Instr} {s t : State} (h : exec i s = .next t) :
    t.params = s.params ∧ t.stream = s.stream := by
  cases i with
  | reset => cases h; exact ⟨rfl, rfl⟩
  | start => exact accept_args h rfl rfl
  | rxbyte b => cases h; split <;> simp
  | idle => exact accept_args h (by simp) (by simp)
  | txdone => exact accept_args h (by simp) (by simp)
  | idle1 => exact accept_args h (by simp) (by simp)
  | idle2 => exact accept_args h (by simp) (by simp)
  | idle3 => exact accept_args h (by simp) (by simp)
  | sendd br now data => exact accept_args h (by simp) (by simp)
  | sendc br now data => exact accept_args h (by simp) (by simp)
  | poll br now => exact accept_args h (by simp) (by simp)

/-- R7: a step keeps the parameters, whatever stands at the head of the trace. -/
theorem step_params {s t : State} (h : step s = .next t) : t.params = s.params := by
  unfold step at h
  split at h
  · cases h; rfl
  · exact (exec_args h).1
  · cases h; rfl

/-! ## Two states with the same block under the same parameters -/

/-- The block and its parameters, with everything else that travels in `State` wiped. -/
def State.bare (s : State) : State := State.ofBlock s.params s.toBlock

/-- Two states that differ at most in the trace, `tx_owed` and the diagnostic trace. -/
def SameBlock (s u : State) : Prop := s.bare = u.bare

/-- Every state has the same block as the one `stepBlock` runs on. -/
theorem sameBlock_ofBlock (s : State) : SameBlock s (State.ofBlock s.params s.toBlock) := rfl

namespace SameBlock

variable {s u t v : State}

/-- A value read off the bare state alone is the same in both. -/
theorem read {α : Type} (h : SameBlock s u) (f : State → α) (hf : ∀ s, f s = f s.bare) :
    f s = f u := by
  rw [hf s, hf u, show s.bare = u.bare from h]

theorem toBlock (h : SameBlock s u) : s.toBlock = u.toBlock := h.read State.toBlock fun _ => rfl

theorem params (h : SameBlock s u) : s.params = u.params := h.read State.params fun _ => rfl

/-- An update whose bare result is a function of the bare state keeps the agreement. -/
theorem update (h : SameBlock s u) (f : State → State)
    (hf : ∀ s, (f s).bare = (f s.bare).bare) : SameBlock (f s) (f u) :=
  h.read (fun s => (f s).bare) hf

/-- A choice on a test that answers alike. -/
theorem ite {c d : Bool} (hc : c = d) (h1 : SameBlock s u) (h2 : SameBlock t v) :
    SameBlock (if c then s else t) (if d then u else v) := by
  subst hc; split
  · exact h1
  · exact h2

/-! ### Updates without a test -/

theorem emit (h : SameBlock s u) (r : Record) : SameBlock (s.emit r) (u.emit r) :=
  h.update (State.emit r) fun _ => rfl

theorem raise (h : SameBlock s u) (c : Condition) : SameBlock (s.raise c) (u.raise c) :=
  h.update (State.raise c) fun _ => rfl

theorem setPos (h : SameBlock s u) (p : Nat) : SameBlock (s.setPos p) (u.setPos p) :=
  h.update (State.setPos p) fun _ => rfl

theorem setFlag (h : SameBlock s u) (f : Flag) (b : Bool) :
    SameBlock (s.setFlag f b) (u.setFlag f b) :=
  h.update (State.setFlag f b) fun _ => by cases f <;> rfl

theorem setCursor (h : SameBlock s u) (n : Nat) :
    SameBlock { s with cursor := n } { u with cursor := n } :=
  h.update (fun s => { s with cursor := n }) fun _ => rfl

theorem setSchedRef (h : SameBlock s u) (now : Time) :
    SameBlock { s with schedRef := now } { u with schedRef := now } :=
  h.update (fun s => { s with schedRef := now }) fun _ => rfl

theorem restart (h : SameBlock s u) : SameBlock s.restart u.restart :=
  h.update State.restart fun _ => rfl

theorem armReceiver (h : SameBlock s u) : SameBlock s.armReceiver u.armReceiver :=
  h.update State.armReceiver fun _ => rfl

theorem completeTransfer (h : SameBlock s u) : SameBlock s.completeTransfer u.completeTransfer :=
  h.update State.completeTransfer fun _ => rfl

/-! ### The receiver (R123) -/

/-- The test for an overrun decides only whether a condition is raised, which is not the block's. -/
theorem storeByte (h : SameBlock s u) (b : Byte) : SameBlock (s.storeByte b) (u.storeByte b) :=
  h.update (State.storeByte b) fun s => by
    rw [storeByte_eq, storeByte_eq]; rfl

/-! ### The line decoder and the correlator (R161 to R164, R181) -/

theorem correlate (h : SameBlock s u) (text : List Byte) :
    SameBlock (s.correlate text) (u.correlate text) :=
  ite (h.read (fun s => s.isEcho text) fun _ => rfl) (h.setFlag .pendValid false)
    (h.emit (.msg text))

theorem applyScanPolicy (h : SameBlock s u) : SameBlock s.applyScanPolicy u.applyScanPolicy := by
  unfold State.applyScanPolicy
  rw [h.params]
  split
  · exact h.setFlag .stop true
  · exact h

theorem cutMessage (h : SameBlock s u) : SameBlock s.cutMessage u.cutMessage :=
  h.update State.cutMessage fun _ => rfl

theorem complete (h : SameBlock s u) : SameBlock s.complete u.complete := by
  have hcut := h.cutMessage
  have htext := hcut.read State.messageText fun _ => rfl
  unfold State.complete
  rw [htext]
  exact (((hcut.correlate _).setFlag .ready false).applyScanPolicy).setCursor 0

theorem overflow (h : SameBlock s u) : SameBlock s.overflow u.overflow :=
  h.update State.overflow fun _ => rfl

theorem appendByte (h : SameBlock s u) (b : Byte) : SameBlock (s.appendByte b) (u.appendByte b) :=
  h.update (State.appendByte b) fun _ => rfl

theorem ingest (h : SameBlock s u) (b : Byte) : SameBlock (s.ingest b) (u.ingest b) :=
  ite (h.read State.assemblerFull fun _ => rfl) h.overflow <|
    ite ((h.appendByte b).read State.terminated fun _ => rfl) (h.appendByte b).complete
      (h.appendByte b)

/-! ### The drain (R145 to R149) -/

theorem drain (h : SameBlock s u) : s.drain = u.drain := h.read (fun s => s.drain) fun _ => rfl

theorem beginDrain (h : SameBlock s u) : SameBlock s.beginDrain u.beginDrain :=
  h.update State.beginDrain fun _ => rfl

theorem deliver (h : SameBlock s u) (b : Byte) : SameBlock (s.deliver b) (u.deliver b) :=
  ite (h.read State.stopped fun _ => rfl) h (h.ingest b)

theorem deliverNext (h : SameBlock s u) : SameBlock s.deliverNext u.deliverNext := by
  cases hd : s.drain with
  | none => rwa [deliverNext_none hd, deliverNext_none (h.drain ▸ hd)]
  | some d =>
    rw [deliverNext_eq hd, deliverNext_eq (h.drain ▸ hd),
      h.read (fun s => s.ringAt d.pos) fun _ => rfl,
      h.read (fun s => s.nextIndex d.pos) fun _ => rfl]
    exact (h.deliver _).setPos _

theorem endDrain (h : SameBlock s u) : SameBlock s.endDrain u.endDrain :=
  h.update State.endDrain fun s => by
    obtain ⟨b, _, _, _, _⟩ := s
    cases hd : b.drain <;> simp [State.endDrain, State.bare, State.ofBlock, hd]

theorem drainLoop (h : SameBlock s u) (fuel : Nat) :
    SameBlock (State.drainLoop fuel s) (State.drainLoop fuel u) := by
  induction fuel generalizing s u with
  | zero => exact h
  | succ k ih => exact ite (h.read State.drained fun _ => rfl) h (ih h.deliverNext)

theorem drainSpan (h : SameBlock s u) : SameBlock s.drainSpan u.drainSpan := by
  unfold State.drainSpan
  rw [h.params]
  exact (h.beginDrain.drainLoop _).endDrain

/-! ### The transmit gate and the scheduler (R197, R198, R207) -/

theorem inFlight (h : SameBlock s u) : s.inFlight = u.inFlight :=
  h.read (fun s => s.inFlight) fun _ => rfl

theorem recordPending (h : SameBlock s u) (now : Time) (data : List Byte) :
    SameBlock (s.recordPending now data) (u.recordPending now data) :=
  h.update (State.recordPending now data) fun _ => rfl

theorem startTransfer (h : SameBlock s u) (now : Time) (data : List Byte) :
    SameBlock (s.startTransfer now data) (u.startTransfer now data) :=
  h.update (State.startTransfer now data) fun _ => rfl

theorem begun (h : SameBlock s u) (cmd : Bool) (br : Br) (now : Time) (data : List Byte) :
    SameBlock (s.begun cmd br now data) (u.begun cmd br now data) := by
  cases br with
  | ok => exact (ite rfl (h.recordPending now data) h).startTransfer now data
  | busy => exact h
  | error => exact h

theorem send (h : SameBlock s u) (cmd : Bool) (br : Br) (now : Time) (data : List Byte) :
    SameBlock (s.send cmd br now data) (u.send cmd br now data) :=
  ite h.inFlight ((h.raise .busy).emit (.res .busy))
    ((h.begun cmd br now data).emit (.res (beginResult br)))

theorem keepAlive (h : SameBlock s u) (br : Br) (now : Time) :
    SameBlock (s.keepAlive br now) (u.keepAlive br now) := by
  unfold State.keepAlive
  rw [h.params]
  exact ite h.inFlight h (h.begun true br now _)

theorem schedulerTick (h : SameBlock s u) (br : Br) (now : Time) :
    SameBlock (s.schedulerTick br now) (u.schedulerTick br now) :=
  ite (h.read (fun s => s.elapsed now) fun _ => rfl) ((h.keepAlive br now).setSchedRef now) h

end SameBlock

/-! ## Events answer alike on the same block -/

/-- Both outcomes are next states, and these have the same block. -/
def SameNext (o p : Host.Outcome State Fault Refusal) : Prop :=
  ∃ t v, o = .next t ∧ p = .next v ∧ SameBlock t v

theorem SameBlock.next {t v : State} (h : SameBlock t v) : SameNext (.next t) (.next v) :=
  ⟨t, v, rfl, rfl, h⟩

/-- The verdict on an event is read off the bare state, and either way the blocks agree (R104). -/
theorem SameBlock.accept {s u t v : State} (h : SameBlock s u) (enabled : State → Bool)
    (he : ∀ s, enabled s = enabled s.bare) (ht : SameBlock t v) :
    SameNext (s.accept (enabled s) t) (u.accept (enabled u) v) :=
  (ite (h.read enabled he) ht (h.emit .reject)).next

/-- R38: what an event does to a block depends on the block and its parameters alone. -/
theorem SameBlock.exec {s u : State} (h : SameBlock s u) (i : Instr) :
    SameNext (exec i s) (exec i u) := by
  cases i with
  | reset => exact h.restart.next
  | start => exact h.accept (fun s => !s.armed && !s.idleRun) (fun _ => rfl) h.armReceiver
  | rxbyte b => exact (ite (h.read (fun s => s.armed) fun _ => rfl) (h.storeByte b) h).next
  | idle => exact h.accept (fun s => !s.idleRun) (fun _ => rfl) h.drainSpan
  | txdone => exact h.accept (fun s => !s.idleRun) (fun _ => rfl) h.completeTransfer
  | idle1 => exact h.accept (fun s => !s.idleRun) (fun _ => rfl) h.beginDrain
  | idle2 => exact h.accept State.canDeliver (fun _ => rfl) h.deliverNext
  | idle3 => exact h.accept State.canFinish (fun _ => rfl) h.endDrain
  | sendd br now data =>
    exact h.accept (fun s => s.dataLegal data && !s.idleRun) (fun _ => rfl)
      (h.send false br now data)
  | sendc br now data =>
    exact h.accept (fun s => s.dataLegal data && !s.idleRun) (fun _ => rfl)
      (h.send true br now data)
  | poll br now => exact h.accept (fun s => !s.idleRun) (fun _ => rfl) (h.schedulerTick br now)

/-- `exec` answers a next state, and its block is the one `stepBlock` computes without the trace,
`tx_owed` and the diagnostic trace. -/
theorem exec_stepBlock (i : Instr) (s : State) :
    ∃ t, exec i s = .next t ∧ t.toBlock = stepBlock s.params i s.toBlock := by
  obtain ⟨t, v, ht, hv, hsame⟩ := (sameBlock_ofBlock s).exec i
  exact ⟨t, ht, hsame.toBlock.trans (stepBlock_eq hv).symm⟩

/-- Settles O46: the first part by the cases of `step`, the second by running the event on the block
with the same parameters and nothing else beside it. -/
theorem parametersNeverChange : Obligations.ParametersNeverChange := by
  refine ⟨fun s t => step_params, fun i s => ?_⟩
  obtain ⟨t, ht, hblock⟩ := exec_stepBlock i s
  obtain ⟨hparams, hstream⟩ := exec_args ht
  exact ⟨t, ht, hblock, hparams, hstream⟩

end Sys2Proof.Machine

/-! # What each context writes, and what the log may gain (R21, R42, R44, R250) -/

namespace Sys2Proof.Machine

/-- R104: what holds after a rejection, and after the body where the event is enabled, holds after the
event. -/
theorem accept_ensures {P : State → Prop} {s t : State} {enabled : Bool} (hr : P s.reject)
    (ht : enabled = true → P t) : ∃ u, s.accept enabled t = .next u ∧ P u := by
  cases enabled
  · exact ⟨s.reject, rfl, hr⟩
  · exact ⟨t, rfl, ht rfl⟩

/-- R145: what relates a state to the next one through each micro-step relates it to what the whole
`IDLE` leaves. -/
theorem drainSpan_rel {R : State → State → Prop} (hrefl : ∀ s, R s s)
    (htrans : ∀ {s t u}, R s t → R t u → R s u) (hbegin : ∀ s, R s s.beginDrain)
    (hnext : ∀ s, R s s.deliverNext) (hend : ∀ s, R s s.endDrain) (s : State) : R s s.drainSpan := by
  have hloop : ∀ (fuel : Nat) (s : State), R s (State.drainLoop fuel s) := by
    intro fuel
    induction fuel with
    | zero => exact hrefl
    | succ k ih =>
      intro s
      unfold State.drainLoop
      split
      · exact hrefl s
      · exact htrans (hnext s) (ih _)
  exact htrans (htrans (hbegin s) (hloop _ _)) (hend _)

/-! ## Agent P: the producer (R123) -/

theorem storeByte_onlyProducer (s : State) (b : Byte) : OnlyProducerState s (s.storeByte b) := by
  rw [storeByte_eq]
  constructor <;> simp

theorem exec_producer {i : Instr} (h : i.agent = .P) (s : State) :
    ∃ t, exec i s = .next t ∧ OnlyProducerState s t := by
  cases i
  case rxbyte b =>
    refine ⟨_, rfl, ?_⟩
    split
    · exact storeByte_onlyProducer s b
    · constructor <;> simp
  all_goals cases h

/-! ## Agent I: the interrupt context (R145 to R149, R181, R204) -/

namespace OnlyInterruptState

theorem refl (s : State) : OnlyInterruptState s s :=
  ⟨rfl, rfl, rfl, rfl, id, id, rfl, rfl, id, rfl, rfl, rfl, rfl, rfl, rfl, rfl⟩

theorem trans {s t u : State} (h : OnlyInterruptState s t) (k : OnlyInterruptState t u) :
    OnlyInterruptState s u where
  params := k.params.trans h.params
  stream := k.stream.trans h.stream
  armed := k.armed.trans h.armed
  remaining := k.remaining.trans h.remaining
  rxSeen := h.rxSeen ∘ k.rxSeen
  pendValid := h.pendValid ∘ k.pendValid
  pendLen := k.pendLen.trans h.pendLen
  pendTime := k.pendTime.trans h.pendTime
  inFlight := h.inFlight ∘ k.inFlight
  txLen := k.txLen.trans h.txLen
  schedRef := k.schedRef.trans h.schedRef
  ring := k.ring.trans h.ring
  pendText := k.pendText.trans h.pendText
  txBuf := k.txBuf.trans h.txBuf
  wTotal := k.wTotal.trans h.wTotal
  epoch := k.epoch.trans h.epoch

end OnlyInterruptState

/-- R182: the correlator only clears `pend_valid`. -/
theorem pendValid_of_correlate {s : State} {text : List Byte}
    (h : (s.correlate text).pendValid = true) : s.pendValid = true := by
  rcases correlate_cases text s with ⟨-, hc⟩ | ⟨-, hc⟩ <;> rw [hc] at h
  · cases h
  · exact h

theorem ingest_onlyInterrupt (s : State) (b : Byte) : OnlyInterruptState s (s.ingest b) := by
  rcases ingest_cases b s with ⟨-, he⟩ | ⟨-, -, he⟩ | ⟨-, -, he⟩ <;> rw [he]
  · constructor <;> simp
  · constructor
    case pendValid =>
      rw [complete_pendValid]
      exact pendValid_of_correlate
    all_goals simp
  · constructor <;> simp

theorem deliver_onlyInterrupt (s : State) (b : Byte) : OnlyInterruptState s (s.deliver b) := by
  unfold State.deliver
  split
  · exact .refl s
  · exact ingest_onlyInterrupt s b

theorem deliverNext_onlyInterrupt (s : State) : OnlyInterruptState s s.deliverNext := by
  cases hd : s.drain with
  | none => rw [deliverNext_none hd]; exact .refl s
  | some d =>
    rw [deliverNext_eq hd]
    exact (deliver_onlyInterrupt s _).trans { OnlyInterruptState.refl _ with }

theorem beginDrain_onlyInterrupt (s : State) : OnlyInterruptState s s.beginDrain := by
  constructor <;> simp

theorem endDrain_onlyInterrupt (s : State) : OnlyInterruptState s s.endDrain := by
  cases hd : s.drain with
  | none => simpa [State.endDrain, hd] using OnlyInterruptState.refl s
  | some d =>
    rw [endDrain_eq hd]
    exact { OnlyInterruptState.refl s with }

theorem drainSpan_onlyInterrupt (s : State) : OnlyInterruptState s s.drainSpan :=
  drainSpan_rel .refl .trans beginDrain_onlyInterrupt deliverNext_onlyInterrupt
    endDrain_onlyInterrupt s

theorem completeTransfer_onlyInterrupt (s : State) : OnlyInterruptState s s.completeTransfer := by
  constructor <;> simp

theorem exec_interrupt {i : Instr} (h : i.agent = .I) (s : State) :
    ∃ t, exec i s = .next t ∧ OnlyInterruptState s t := by
  have hr : OnlyInterruptState s s.reject := { OnlyInterruptState.refl s with }
  cases i
  case idle => exact accept_ensures hr fun _ => drainSpan_onlyInterrupt s
  case txdone => exact accept_ensures hr fun _ => completeTransfer_onlyInterrupt s
  case idle1 => exact accept_ensures hr fun _ => beginDrain_onlyInterrupt s
  case idle2 => exact accept_ensures hr fun _ => deliverNext_onlyInterrupt s
  case idle3 => exact accept_ensures hr fun _ => endDrain_onlyInterrupt s
  all_goals cases h

/-! ## Agent M: the main loop (R122, R197, R207) -/

/-- What the main loop's events other than `START` may change: the receiver's arming is not theirs. -/
structure OnlyGateState (s t : State) : Prop extends OnlyMainLoopState s t where
  armed : t.armed = s.armed
  remaining : t.remaining = s.remaining

theorem reject_onlyGate (s : State) : OnlyGateState s s.reject := by
  constructor
  · constructor <;> simp
  · rfl
  · rfl

theorem send_onlyGate (s : State) (cmd : Bool) (br : Br) (now : Time) (data : List Byte) :
    OnlyGateState s (s.send cmd br now data) := by
  rcases send_cases cmd br now data s with ⟨_, he⟩ | ⟨_, _, he⟩ | ⟨_, _, he⟩ <;> rw [he]
  · exact { reject_onlyGate s with }
  · cases cmd
    · exact { reject_onlyGate s with inFlight := fun _ => rfl }
    · exact { reject_onlyGate s with inFlight := fun _ => rfl, pendValid := fun _ => rfl }
  · exact { reject_onlyGate s with }

theorem schedulerTick_onlyGate (s : State) (br : Br) (now : Time) :
    OnlyGateState s (s.schedulerTick br now) := by
  rcases schedulerTick_cases br now s with ⟨_, he⟩ | ⟨_, _, he⟩ | ⟨_, _, _, he⟩ <;> rw [he]
  · exact { reject_onlyGate s with }
  · exact { reject_onlyGate s with }
  · exact { reject_onlyGate s with inFlight := fun _ => rfl, pendValid := fun _ => rfl }

theorem armReceiver_onlyMainLoop (s : State) : OnlyMainLoopState s s.armReceiver :=
  { reject_onlyGate s with }

theorem exec_mainLoop {i : Instr} (h : i.agent = .M) (s : State) :
    ∃ t, exec i s = .next t ∧ OnlyMainLoopState s t ∧
      (i ≠ .start → t.armed = s.armed ∧ t.remaining = s.remaining) := by
  have hgate {t : State} (k : OnlyGateState s t) : OnlyMainLoopState s t ∧
      (i ≠ .start → t.armed = s.armed ∧ t.remaining = s.remaining) :=
    ⟨k.toOnlyMainLoopState, fun _ => ⟨k.armed, k.remaining⟩⟩
  have hr := hgate (reject_onlyGate s)
  cases i
  case start =>
    exact accept_ensures hr fun _ => ⟨armReceiver_onlyMainLoop s, fun hne => absurd rfl hne⟩
  case sendd br now data => exact accept_ensures hr fun _ => hgate (send_onlyGate s false br now data)
  case sendc br now data => exact accept_ensures hr fun _ => hgate (send_onlyGate s true br now data)
  case poll br now => exact accept_ensures hr fun _ => hgate (schedulerTick_onlyGate s br now)
  all_goals cases h

/-- Settles O41: by the agent that raises the event. -/
theorem contextsWriteOnlyTheirState : Obligations.ContextsWriteOnlyTheirState := by
  intro i s
  cases ha : i.agent with
  | H =>
    obtain ⟨t, ht, -⟩ := exec_stepBlock i s
    exact ⟨t, ht, nofun, nofun, nofun⟩
  | P =>
    obtain ⟨t, ht, h⟩ := exec_producer ha s
    exact ⟨t, ht, fun _ => h, nofun, nofun⟩
  | I =>
    obtain ⟨t, ht, h⟩ := exec_interrupt ha s
    exact ⟨t, ht, nofun, fun _ => h, nofun⟩
  | M =>
    obtain ⟨t, ht, h⟩ := exec_mainLoop ha s
    exact ⟨t, ht, nofun, nofun, fun _ => h⟩

/-! ## The log and the transfers it shows (R42, R44) -/

/-- R163: the record that `COMPLETE` emits, if it emits one, is the message that was cut. -/
theorem out_complete (s : State) :
    s.complete.out = s.out ∨ s.complete.out = s.out ++ [.msg s.cutMessage.messageText] := by
  rw [complete_out]
  rcases correlate_cases s.cutMessage.messageText s.cutMessage with ⟨-, h⟩ | ⟨-, h⟩ <;> rw [h]
  · exact .inl rfl
  · exact .inr rfl

/-- R42: how many transfers the log can show started before the next completion: those it shows, and
one more through an open gate. -/
def State.transferBound (s : State) : Nat := s.txstarts + if s.inFlight then 0 else 1

/-- The log only grows, and no transfer starts but through an open gate, which it closes. -/
structure LogStep (s t : State) : Prop where
  grows : s.out <+: t.out
  bound : t.transferBound ≤ s.transferBound

namespace LogStep

variable {s t u : State}

theorem refl (s : State) : LogStep s s := ⟨List.prefix_refl _, Nat.le_refl _⟩

theorem trans (h : LogStep s t) (k : LogStep t u) : LogStep s u :=
  ⟨h.grows.trans k.grows, k.bound.trans h.bound⟩

/-- An operation that leaves the log and the gate alone. -/
theorem of_eq (ho : t.out = s.out) (hg : t.inFlight = s.inFlight) : LogStep s t where
  grows := ho ▸ List.prefix_refl _
  bound := by simp [State.transferBound, State.txstarts, ho, hg]

/-- A record that starts no transfer. -/
theorem of_append {r : Record} (ho : t.out = s.out ++ [r]) (hr : r.isTxstart = false)
    (hg : t.inFlight = s.inFlight) : LogStep s t where
  grows := ho ▸ List.prefix_append _ _
  bound := by simp [State.transferBound, State.txstarts, ho, hr, hg]

/-- R42: a transfer that starts uses up what the open gate allowed. -/
theorem startTransfer (hopen : s.inFlight = false) (now : Time) (data : List Byte) :
    LogStep s (s.startTransfer now data) where
  grows := List.prefix_append _ _
  bound := by simp [State.transferBound, State.txstarts, Record.isTxstart, hopen]

theorem startCommand (hopen : s.inFlight = false) (now : Time) (data : List Byte) :
    LogStep s ((s.recordPending now data).startTransfer now data) := by
  have hrecord : LogStep s (s.recordPending now data) := of_eq rfl rfl
  exact hrecord.trans (startTransfer (s := s.recordPending now data) hopen now data)

theorem ingest (s : State) (b : Byte) : LogStep s (s.ingest b) := by
  rcases ingest_cases b s with ⟨-, he⟩ | ⟨-, -, he⟩ | ⟨-, -, he⟩ <;> rw [he]
  · exact of_eq rfl rfl
  · rcases out_complete (s.appendByte b) with ho | ho
    · exact of_eq ho (complete_inFlight _)
    · exact of_append ho rfl (complete_inFlight _)
  · exact of_eq rfl rfl

theorem deliver (s : State) (b : Byte) : LogStep s (s.deliver b) := by
  unfold State.deliver
  split
  · exact refl s
  · exact ingest s b

theorem deliverNext (s : State) : LogStep s s.deliverNext := by
  cases hd : s.drain with
  | none => rw [deliverNext_none hd]; exact refl s
  | some d =>
    rw [deliverNext_eq hd]
    exact (deliver s _).trans (of_eq rfl rfl)

theorem endDrain (s : State) : LogStep s s.endDrain := by
  unfold State.endDrain
  split <;> exact of_eq rfl rfl

theorem drainSpan (s : State) : LogStep s s.drainSpan :=
  drainSpan_rel refl trans (fun _ => of_eq rfl rfl) deliverNext endDrain s

theorem send (s : State) (cmd : Bool) (br : Br) (now : Time) (data : List Byte) :
    LogStep s (s.send cmd br now data) := by
  rcases send_cases cmd br now data s with ⟨-, he⟩ | ⟨hopen, -, he⟩ | ⟨-, -, he⟩ <;> rw [he]
  · exact of_append rfl rfl rfl
  · refine trans ?_ (of_append (r := .res .ok) rfl rfl rfl)
    cases cmd
    · exact startTransfer hopen now data
    · exact startCommand hopen now data
  · exact of_append rfl rfl rfl

theorem schedulerTick (s : State) (br : Br) (now : Time) : LogStep s (s.schedulerTick br now) := by
  rcases schedulerTick_cases br now s with ⟨-, he⟩ | ⟨-, -, he⟩ | ⟨-, hopen, -, he⟩ <;> rw [he]
  · exact refl s
  · exact of_eq rfl rfl
  · exact startCommand hopen now _

end LogStep

/-- R42, R44: every event but `TXDONE`, which opens the gate, and `RESET`, which empties the log. -/
theorem exec_logStep {i : Instr} (htx : i ≠ .txdone) (hre : i ≠ .reset) (s : State) :
    ∃ t, exec i s = .next t ∧ LogStep s t := by
  have hr : LogStep s s.reject := .of_append (r := .reject) rfl rfl rfl
  cases i with
  | reset => exact absurd rfl hre
  | start => exact accept_ensures hr fun _ => .of_eq rfl rfl
  | rxbyte b =>
    refine ⟨_, rfl, ?_⟩
    split
    · exact .of_eq (noteOverrun_out s) (noteOverrun_inFlight s)
    · exact .refl s
  | idle => exact accept_ensures hr fun _ => .drainSpan s
  | txdone => exact absurd rfl htx
  | idle1 => exact accept_ensures hr fun _ => .of_eq rfl rfl
  | idle2 => exact accept_ensures hr fun _ => .deliverNext s
  | idle3 => exact accept_ensures hr fun _ => .endDrain s
  | sendd br now data => exact accept_ensures hr fun _ => .send s false br now data
  | sendc br now data => exact accept_ensures hr fun _ => .send s true br now data
  | poll br now => exact accept_ensures hr fun _ => .schedulerTick s br now

/-- Settles O47. -/
theorem outputLogOnlyGrows : Obligations.OutputLogOnlyGrows := by
  intro i s hre
  by_cases htx : i = .txdone
  · subst htx
    exact accept_ensures (P := fun t => s.out <+: t.out) (List.prefix_append _ _)
      fun _ => List.prefix_refl _
  · obtain ⟨t, ht, h⟩ := exec_logStep htx hre s
    exact ⟨t, ht, h.grows⟩

/-- R42: the bound holds along a whole trace. -/
theorem runEvents_transferBound {trace : List Instr} {s : State}
    (h : ∀ i ∈ trace, i ≠ .txdone ∧ i ≠ .reset) :
    ∃ t, runEvents trace s = .next t ∧ t.transferBound ≤ s.transferBound := by
  induction trace generalizing s with
  | nil => exact ⟨s, rfl, Nat.le_refl _⟩
  | cons i trace ih =>
    obtain ⟨htx, hre⟩ := h i List.mem_cons_self
    obtain ⟨t, ht, hstep⟩ := exec_logStep htx hre s
    obtain ⟨u, hu, hrun⟩ := ih (s := t) fun j hj => h j (List.mem_cons_of_mem i hj)
    exact ⟨u, by simpa only [runEvents, ht] using hu, hrun.trans hstep.bound⟩

/-- Settles O33: the transfers the log shows at the end are within the bound at the beginning. -/
theorem atMostOneTransferBetweenCompletions : Obligations.AtMostOneTransferBetweenCompletions := by
  intro trace s h
  obtain ⟨t, ht, hbound⟩ := runEvents_transferBound h
  exact ⟨t, ht, (Nat.le_add_right _ _).trans hbound⟩

end Sys2Proof.Machine

/-! # The invariants: at every reset, through every operation, in every reachable state (R40, R41, R45) -/

namespace Sys2Proof.Machine

/-! ## The state a reset leaves (R46, R270) -/

/-- R34: after a reset no element of any array has been written. -/
theorem not_written_initial (p : Config.Params) (stream : List Byte) (epoch : Nat) (owed : Bool)
    (a : Config.ArrayName) (i : Nat) : ¬ (State.initial p stream epoch owed).written a i := by
  cases a <;> simp [State.written, State.array, State.initial]

/-- Settles O1: the registers by evaluation, the arrays because they list nothing. -/
theorem resetStateHoldsSpecValues : Obligations.ResetStateHoldsSpecValues :=
  ⟨rfl, rfl, rfl, rfl, rfl, rfl, rfl, rfl, rfl, rfl, rfl, rfl, rfl, rfl, rfl, rfl, rfl,
    not_written_initial Config.defaultParams [] 0 false⟩

/-- R40: a block just reset meets the invariants, whatever its parameters. Every clause about
written elements is about none, and the write position is `CAPACITY mod CAPACITY`. -/
theorem inv_initial (p : Config.Params) (stream : List Byte) (epoch : Nat) (owed : Bool) :
    Inv (State.initial p stream epoch owed) where
  remaining_pos := p.capacity_pos
  remaining_le := Nat.le_refl _
  consumed_lt := p.capacity_pos
  cursor_le := Nat.zero_le _
  msgLen_le := Nat.zero_le _
  ready_clear := rfl
  pendLen_le := Nat.zero_le _
  pendLen_pos := nofun
  txLen_le := Nat.zero_le _
  txLen_pos := nofun
  no_terminator := fun i _ hi => absurd hi (Nat.not_lt_zero i)
  unarmed := fun _ => ⟨rfl, rfl, rfl, rfl⟩
  writePos_eq := by simp [State.writePos, State.initial]
  consumed_eq := (Nat.zero_mod _).symm
  cTotal_le := Nat.le_refl _
  drain_ok := nofun
  quiet := fun _ _ => rfl
  owed := nofun
  arrays_wf := fun a => by cases a <;> rfl
  arrays_bounded := fun a i hw => absurd hw (not_written_initial p stream epoch owed a i)
  ring_written := fun i _ hi => absurd hi (Nat.not_lt_zero i)
  asm_written := fun i hi => absurd hi (Nat.not_lt_zero i)
  pend_written := nofun
  tx_written := nofun
  out_wf := nofun

/-- Settles O42: `State.reset` is the state a reset leaves under the default parameters. -/
theorem invHoldsAtReset : Obligations.InvHoldsAtReset :=
  inv_initial Config.defaultParams [] 0 false

/-- `RESET` leaves the initial state of its own parameters, in a new epoch (R270). -/
theorem restart_eq_initial (s : State) :
    s.restart = State.initial s.params s.stream (s.epoch + 1) s.txOwed := rfl

theorem restart_inv (s : State) : Inv s.restart :=
  restart_eq_initial s ▸ inv_initial s.params s.stream (s.epoch + 1) s.txOwed

/-- Settles O43. -/
theorem invHoldsAfterEveryReset : Obligations.InvHoldsAfterEveryReset :=
  fun s => ⟨s.restart, rfl, restart_inv s⟩

/-! ## Which elements a write leaves written -/

theorem isSome_get?_write (m : Memory) (i j : Nat) (b : Byte) :
    ((m.write i b).get? j).isSome = true ↔ j = i ∨ (m.get? j).isSome = true := by
  rw [get?_write]
  split <;> simp [*]

theorem isSome_get?_writeBytes (bs : List Byte) (m : Memory) (i j : Nat) :
    ((m.writeBytes i bs).get? j).isSome = true ↔
      (i ≤ j ∧ j < i + bs.length) ∨ (m.get? j).isSome = true := by
  rw [get?_writeBytes]
  split
  · rename_i h
    have : j - i < bs.length := by omega
    simp [h, this]
  · simp [*]

/-- What the invariants ask of an array of `n` elements on its own: the canonical form (log 17), and
nothing outside its bounds (R62). -/
structure ArrayOk (n : Nat) (m : Memory) : Prop where
  wf : m.wf = true
  bounded : ∀ i, (m.get? i).isSome = true → i < n

theorem ArrayOk.write {n i : Nat} {m : Memory} (h : ArrayOk n m) (hi : i < n) (b : Byte) :
    ArrayOk n (m.write i b) where
  wf := wf_write m i b h.wf
  bounded := fun j hj => by
    rcases (isSome_get?_write m i j b).mp hj with rfl | hj
    · exact hi
    · exact h.bounded j hj

theorem ArrayOk.writeBytes {n i : Nat} {m : Memory} (h : ArrayOk n m) {bs : List Byte}
    (hl : i + bs.length ≤ n) : ArrayOk n (m.writeBytes i bs) where
  wf := wf_writeBytes bs m i h.wf
  bounded := fun j hj => by
    rcases (isSome_get?_writeBytes bs m i j).mp hj with ⟨-, hj⟩ | hj
    · omega
    · exact h.bounded j hj

theorem Inv.arrayOk {s : State} (h : Inv s) (a : Config.ArrayName) :
    ArrayOk (s.arraySize a) (s.array a) := ⟨h.arrays_wf a, h.arrays_bounded a⟩

/-! ## Updates no invariant depends on, or one only -/

/-- The condition of a running drain speaks of the parameters, the counts, `consumed` and `rx_seen`
alone. -/
theorem DrainInv.transfer {s t : State} {d : Drain} (h : DrainInv s d) (hp : t.params = s.params)
    (hc : t.cTotal = s.cTotal) (hw : t.wTotal = s.wTotal) (hk : t.consumed = s.consumed)
    (hr : t.rxSeen = s.rxSeen) : DrainInv t d where
  pos_lt := hp ▸ h.pos_lt
  wp_eq := hp ▸ h.wp_eq
  sampled_ge := hc ▸ h.sampled_ge
  sampled_le := hw ▸ h.sampled_le
  pos_in_span := by
    have := h.pos_in_span
    simpa only [State.ringDistance, hp, hk] using this
  quiet := by rw [hr, hw]; exact h.quiet

theorem Inv.withStream {s : State} (h : Inv s) (rest : List Byte) : Inv (s.withStream rest) :=
  { h with drain_ok := fun d hd => (h.drain_ok d hd).transfer rfl rfl rfl rfl rfl }

theorem Inv.raise {s : State} (h : Inv s) (c : Condition) : Inv (s.raise c) :=
  { h with drain_ok := fun d hd => (h.drain_ok d hd).transfer rfl rfl rfl rfl rfl }

theorem Inv.setSchedRef {s : State} (h : Inv s) (now : Time) : Inv { s with schedRef := now } :=
  { h with drain_ok := fun d hd => (h.drain_ok d hd).transfer rfl rfl rfl rfl rfl }

/-- R100: a record of legal length may be appended. -/
theorem Inv.emit {s : State} (h : Inv s) {r : Record} (hr : r.wellFormed s.params = true) :
    Inv (s.emit r) :=
  { h with
    drain_ok := fun d hd => (h.drain_ok d hd).transfer rfl rfl rfl rfl rfl
    out_wf := fun q hq => by
      rcases List.mem_append.mp hq with hq | hq
      · exact h.out_wf q hq
      · rw [List.mem_singleton.mp hq]; exact hr }

theorem Inv.reject {s : State} (h : Inv s) : Inv s.reject := h.emit rfl

/-! ## The receiver (R122, R123) -/

/-- `START` in an unarmed block finds `remaining` at CAPACITY already (I9). -/
theorem Inv.armReceiver {s : State} (h : Inv s) (hs : s.armed = false) : Inv s.armReceiver := by
  obtain ⟨hrem, -, -, -⟩ := h.unarmed hs
  have heq : s.armReceiver = { s with armed := true } := by
    simp [State.armReceiver, ← hrem]
  rw [heq]
  exact { h with
    unarmed := nofun
    drain_ok := fun d hd => (h.drain_ok d hd).transfer rfl rfl rfl rfl rfl }

/-- R124, R45: the write position moves on with the count of stored bytes. -/
theorem writePos_countDown {s : State} (h : Inv s) :
    (s.params.capacity - s.countDown) % s.params.capacity = (s.wTotal + 1) % s.params.capacity := by
  have hpos := h.remaining_pos
  have hle := h.remaining_le
  have hwp : (s.params.capacity - s.remaining) % s.params.capacity =
    s.wTotal % s.params.capacity := h.writePos_eq
  have hnext : (s.wTotal + 1) % s.params.capacity =
      (s.params.capacity - s.remaining + 1) % s.params.capacity := by
    rw [Nat.add_mod, ← hwp, ← Nat.add_mod]
  rw [hnext]
  unfold State.countDown
  split
  · have : s.params.capacity - s.remaining + 1 = s.params.capacity := by omega
    rw [this, Nat.sub_self, Nat.zero_mod, Nat.mod_self]
  · congr 1
    omega

/-- R123: a stored byte keeps the invariants, also while a drain runs. -/
theorem Inv.storeByte {s : State} (h : Inv s) (hs : s.armed = true) (b : Byte) :
    Inv (s.storeByte b) := by
  obtain ⟨hpos, hle⟩ := countDown_range s h.remaining_pos h.remaining_le
  have hok : ∀ a, ArrayOk ((s.storeByte b).arraySize a) ((s.storeByte b).array a) := by
    rw [storeByte_eq]
    exact fun
      | .ring => (h.arrayOk .ring).write (writePos_lt s) b
      | .asm => h.arrayOk .asm
      | .pendText => h.arrayOk .pendText
      | .txBuf => h.arrayOk .txBuf
  rw [storeByte_eq] at hok ⊢
  exact { h with
    remaining_pos := hpos
    remaining_le := hle
    unarmed := fun hu => absurd (hs.symm.trans hu) (by decide)
    writePos_eq := writePos_countDown h
    cTotal_le := Nat.le_succ_of_le h.cTotal_le
    drain_ok := fun d hd =>
      { h.drain_ok d hd with
        sampled_le := Nat.le_succ_of_le (h.drain_ok d hd).sampled_le
        quiet := nofun }
    quiet := nofun
    arrays_wf := fun a => (hok a).wf
    arrays_bounded := fun a => (hok a).bounded
    ring_written := fun i hi hw => by
      refine (isSome_get?_write ..).mpr ?_
      by_cases hlt : i < s.wTotal
      · exact .inr (h.ring_written i hi hlt)
      · have hiw : i = s.wTotal := by
          have : i < s.wTotal + 1 := hw
          omega
        exact .inl (by rw [h.writePos_eq, ← hiw, Nat.mod_eq_of_lt hi]) }

/-! ## The line decoder (R161 to R164) -/

/-- The invariants that the line decoder is answerable for: (I3), (I4), (I5), (I8), the assembler's
part of R34, R41 and R62, and the lengths of the records. -/
structure DecoderInv (s : State) : Prop where
  cursor_le : s.cursor ≤ s.params.maxLen
  msgLen_le : s.msgLen ≤ s.params.maxLen - 2
  ready_clear : s.ready = false
  no_terminator : ∀ i, 1 ≤ i → i < s.cursor →
    ¬(s.elem .asm (i - 1) = Config.cr ∧ s.elem .asm i = Config.lf)
  asm_ok : ArrayOk s.params.maxLen s.asm
  asm_written : ∀ i, i < s.cursor → s.written .asm i
  out_wf : ∀ r ∈ s.out, r.wellFormed s.params = true

theorem Inv.decoder {s : State} (h : Inv s) : DecoderInv s :=
  { h with asm_ok := h.arrayOk .asm }

theorem terminated_iff (s : State) :
    s.terminated = true ↔ 2 ≤ s.cursor ∧
      s.elem .asm (s.cursor - 2) = Config.cr ∧ s.elem .asm (s.cursor - 1) = Config.lf := by
  simp [State.terminated, and_assoc]

theorem elem_asm_appendByte (s : State) (b : Byte) (j : Nat) :
    (s.appendByte b).elem .asm j = if j = s.cursor then b else s.elem .asm j :=
  elem_of_write (s := s) (t := s.appendByte b) (a := .asm) rfl rfl j

/-- R164: an overflow leaves an empty assembler of zeros. -/
theorem DecoderInv.overflow {s : State} (h : DecoderInv s) : DecoderInv s.overflow :=
  { h with
    cursor_le := Nat.zero_le _
    ready_clear := rfl
    no_terminator := fun i _ hi => absurd hi (Nat.not_lt_zero i)
    asm_ok := h.asm_ok.writeBytes (by simp)
    asm_written := fun i hi => absurd hi (Nat.not_lt_zero i) }

/-- R161: the assembler is written up to the cursor, before an append and after it. -/
theorem written_asm_appendByte {s : State} (h : ∀ i, i < s.cursor → s.written .asm i) (b : Byte) :
    ∀ i, i < (s.appendByte b).cursor → (s.appendByte b).written .asm i := by
  intro i hi
  rw [appendByte_cursor] at hi
  refine (isSome_get?_write ..).mpr ?_
  by_cases hcur : i = s.cursor
  · exact .inl hcur
  · exact .inr (h i (by omega))

/-- R161: an appended byte that completes no terminator. The only new pair of neighbours is the last
one, and the test of `INGEST` has just looked at it. -/
theorem DecoderInv.appendByte {s : State} (h : DecoderInv s) {b : Byte}
    (hroom : s.cursor < s.params.maxLen) (ht : (s.appendByte b).terminated = false) :
    DecoderInv (s.appendByte b) :=
  { h with
    cursor_le := hroom
    no_terminator := fun i h1 hi => by
      have hlast := mt (terminated_iff (s.appendByte b)).mpr (by simp [ht])
      rw [appendByte_cursor] at hi hlast
      by_cases hlt : i < s.cursor
      · rw [elem_asm_appendByte, elem_asm_appendByte, if_neg (by omega), if_neg (by omega)]
        exact h.no_terminator i h1 hlt
      · obtain rfl : i = s.cursor := by omega
        exact fun hp => hlast ⟨by omega, hp⟩
    asm_ok := h.asm_ok.write hroom b
    asm_written := written_asm_appendByte h.asm_written b }

/-- R163: after a terminator the message is two bytes shorter than the assembler was full. -/
theorem DecoderInv.complete {s : State} (h : DecoderInv s) {b : Byte}
    (hroom : s.cursor < s.params.maxLen) : DecoderInv (s.appendByte b).complete where
  cursor_le := Nat.zero_le _
  msgLen_le := by simp; omega
  ready_clear := complete_ready _
  no_terminator := fun i _ hi => absurd hi (Nat.not_lt_zero i)
  asm_ok := by
    rw [complete_params, complete_asm]
    exact (h.asm_ok.write hroom b).write (by simp; omega) 0x00
  asm_written := fun i hi => absurd hi (Nat.not_lt_zero i)
  out_wf := fun r hr => by
    have hlen := s.params.maxLen_ge
    rw [complete_params]
    rcases out_complete (s.appendByte b) with ho | ho <;> rw [ho] at hr
    · exact h.out_wf r hr
    · rcases List.mem_append.mp hr with hr | hr
      · exact h.out_wf r hr
      · rw [List.mem_singleton.mp hr]
        simp [Record.wellFormed, State.messageText]
        omega

/-- `INGEST` keeps the decoder's invariants, in each of the three things it can do. -/
theorem DecoderInv.ingest {s : State} (h : DecoderInv s) (b : Byte) : DecoderInv (s.ingest b) := by
  rcases ingest_cases b s with ⟨-, he⟩ | ⟨hroom, -, he⟩ | ⟨hroom, ht, he⟩ <;> rw [he]
  · exact h.overflow
  · exact h.complete hroom
  · exact h.appendByte hroom ht

theorem DecoderInv.deliver {s : State} (h : DecoderInv s) (b : Byte) : DecoderInv (s.deliver b) := by
  unfold State.deliver
  split
  · exact h
  · exact h.ingest b

theorem DecoderInv.deliverNext {s : State} (h : DecoderInv s) : DecoderInv s.deliverNext := by
  cases hd : s.drain with
  | none => rwa [deliverNext_none hd]
  | some d =>
    rw [deliverNext_eq hd]
    exact { h.deliver (s.ringAt d.pos) with }

/-! ## The drain (R145 to R149) -/

/-- R146: micro-step 1 starts at the beginning of its span, with its samples just taken. -/
theorem Inv.beginDrain {s : State} (h : Inv s) : Inv s.beginDrain :=
  { h with
    unarmed := fun hu => by
      obtain ⟨hrem, hcons, -, hw⟩ := h.unarmed hu
      exact ⟨hrem, hcons, rfl, hw⟩
    drain_ok := fun d hd => by
      obtain rfl := Option.some.inj hd
      exact {
        pos_lt := h.consumed_lt
        wp_eq := h.writePos_eq
        sampled_ge := h.cTotal_le
        sampled_le := Nat.le_refl _
        pos_in_span := Nat.le_refl _
        quiet := fun _ => rfl }
    quiet := nofun }

/-- R147: after a delivery the drain still stands inside its span, one index closer to the end. -/
theorem DrainInv.deliverNext {s : State} {d : Drain} (h : DrainInv s d) (hne : d.pos ≠ d.wp)
    (stop : Bool) :
    DrainInv s.deliverNext { wp := d.wp, pos := s.nextIndex d.pos, stop := stop, ws := d.ws } := by
  have hwp : d.wp < s.params.capacity := h.wp_eq ▸ Nat.mod_lt _ s.params.capacity_pos
  have hcloser := ringDistance_nextIndex s h.pos_lt hwp hne
  have hspan := h.pos_in_span
  have hstep : DrainInv s { wp := d.wp, pos := s.nextIndex d.pos, stop := stop, ws := d.ws } :=
    { h with pos_lt := nextIndex_lt s d.pos, pos_in_span := by simp only; omega }
  exact hstep.transfer (by simp) (by simp) (by simp) (by simp) (by simp)

/-- R147: micro-step 2 keeps the invariants: the decoder's by `INGEST`, the drain's by the move of
`pos`, and it leaves alone what the others speak of. -/
theorem Inv.deliverNext {s : State} {d : Drain} (h : Inv s) (hd : s.drain = some d)
    (hne : d.pos ≠ d.wp) : Inv s.deliverNext := by
  have hdec := h.decoder.deliverNext
  have hpend := (deliverNext_onlyInterrupt s).pendValid
  obtain ⟨stop, -, hd'⟩ := deliverNext_drain hd
  have hok : ∀ a, ArrayOk (s.deliverNext.arraySize a) (s.deliverNext.array a)
    | .ring => by simpa [State.array, State.arraySize] using h.arrayOk .ring
    | .asm => hdec.asm_ok
    | .pendText => by simpa [State.array, State.arraySize] using h.arrayOk .pendText
    | .txBuf => by simpa [State.array, State.arraySize] using h.arrayOk .txBuf
  exact {
    hdec with
    remaining_pos := by simpa using h.remaining_pos
    remaining_le := by simpa using h.remaining_le
    consumed_lt := by simpa using h.consumed_lt
    pendLen_le := by simpa using h.pendLen_le
    pendLen_pos := fun hv => by simpa using h.pendLen_pos (hpend hv)
    txLen_le := by simpa using h.txLen_le
    txLen_pos := by simpa using h.txLen_pos
    unarmed := by simpa using h.unarmed
    writePos_eq := by simpa [State.writePos] using h.writePos_eq
    consumed_eq := by simpa using h.consumed_eq
    cTotal_le := by simpa using h.cTotal_le
    drain_ok := fun d' h' => by
      obtain rfl := Option.some.inj (hd'.symm.trans h')
      exact (h.drain_ok d hd).deliverNext hne stop
    quiet := fun _ hnone => by rw [hd'] at hnone; cases hnone
    owed := by simpa using h.owed
    arrays_wf := fun a => (hok a).wf
    arrays_bounded := fun a => (hok a).bounded
    ring_written := by simpa [State.written, State.array] using h.ring_written
    pend_written := fun hv => by
      simpa [State.written, State.array] using h.pend_written (hpend hv)
    tx_written := by simpa [State.written, State.array] using h.tx_written }

/-- R149: micro-step 3 moves `consumed` to the sampled write position, whose count it sampled too. -/
theorem Inv.endDrain {s : State} (h : Inv s) : Inv s.endDrain := by
  cases hd : s.drain with
  | none => simpa [State.endDrain, hd] using h
  | some d =>
    have hok := h.drain_ok d hd
    rw [endDrain_eq hd]
    exact { h with
      consumed_lt := hok.wp_eq ▸ Nat.mod_lt _ s.params.capacity_pos
      unarmed := fun hu => by
        obtain ⟨hrem, -, hseen, hw⟩ := h.unarmed hu
        have hws : d.ws = 0 := by have := hok.sampled_le; omega
        exact ⟨hrem, by simp [hok.wp_eq, hws], hseen, hw⟩
      consumed_eq := hok.wp_eq
      cTotal_le := hok.sampled_le
      drain_ok := nofun
      quiet := fun hr _ => hok.quiet hr }

theorem canDeliver_iff (s : State) :
    s.canDeliver = true ↔ ∃ d, s.drain = some d ∧ d.pos ≠ d.wp := by
  cases hd : s.drain <;> simp [State.canDeliver, State.idleRun, State.drained, hd]

/-- A drain that has not reached its end can deliver. -/
theorem canDeliver_of_not_drained {s : State} (h : ¬ s.drained = true) : s.canDeliver = true := by
  rw [canDeliver_iff]
  cases hd : s.drain <;> simp_all [State.drained]

/-- The same, from the test of `IDLE2`. -/
theorem Inv.deliverNext_of_canDeliver {s : State} (h : Inv s) (hc : s.canDeliver = true) :
    Inv s.deliverNext := by
  obtain ⟨d, hd, hne⟩ := (canDeliver_iff s).mp hc
  exact h.deliverNext hd hne

theorem Inv.drainLoop {s : State} (h : Inv s) (fuel : Nat) : Inv (State.drainLoop fuel s) := by
  induction fuel generalizing s with
  | zero => exact h
  | succ k ih =>
    unfold State.drainLoop
    split
    · exact h
    · exact ih (h.deliverNext_of_canDeliver (canDeliver_of_not_drained ‹_›))

theorem Inv.drainSpan {s : State} (h : Inv s) : Inv s.drainSpan :=
  (h.beginDrain.drainLoop _).endDrain

/-! ## The transmit gate and the scheduler (R197, R198, R204, R207) -/

/-- R97: the data of a send or a keep-alive has 1 to TX_MAX bytes. -/
theorem dataLegal_iff (s : State) (data : List Byte) :
    s.dataLegal data = true ↔ 1 ≤ data.length ∧ data.length ≤ s.params.txMax := by
  simp [State.dataLegal]

theorem dataLegal_kaText (s : State) : s.dataLegal s.params.kaText = true :=
  (dataLegal_iff s _).mpr ⟨s.params.kaText_pos, s.params.kaText_le⟩

theorem Inv.recordPending {s : State} (h : Inv s) (now : Time) {data : List Byte}
    (hl : s.dataLegal data = true) : Inv (s.recordPending now data) := by
  obtain ⟨hpos, hle⟩ := (dataLegal_iff s data).mp hl
  have hok : ∀ a,
      ArrayOk ((s.recordPending now data).arraySize a) ((s.recordPending now data).array a)
    | .ring => h.arrayOk .ring
    | .asm => h.arrayOk .asm
    | .pendText => (h.arrayOk .pendText).writeBytes (by simpa [State.arraySize] using hle)
    | .txBuf => h.arrayOk .txBuf
  exact { h with
    pendLen_le := hle
    pendLen_pos := fun _ => hpos
    drain_ok := fun d hd => (h.drain_ok d hd).transfer rfl rfl rfl rfl rfl
    arrays_wf := fun a => (hok a).wf
    arrays_bounded := fun a => (hok a).bounded
    pend_written := fun _ i hi =>
      (isSome_get?_writeBytes ..).mpr (.inl ⟨Nat.zero_le i, by simpa using hi⟩) }

theorem Inv.startTransfer {s : State} (h : Inv s) (now : Time) {data : List Byte}
    (hl : s.dataLegal data = true) : Inv (s.startTransfer now data) := by
  obtain ⟨hpos, hle⟩ := (dataLegal_iff s data).mp hl
  have hok : ∀ a,
      ArrayOk ((s.startTransfer now data).arraySize a) ((s.startTransfer now data).array a)
    | .ring => h.arrayOk .ring
    | .asm => h.arrayOk .asm
    | .pendText => h.arrayOk .pendText
    | .txBuf => (h.arrayOk .txBuf).writeBytes (by simpa [State.arraySize] using hle)
  exact { h.emit (r := .txstart data) hl with
    txLen_le := hle
    txLen_pos := fun _ => hpos
    drain_ok := fun d hd => (h.drain_ok d hd).transfer rfl rfl rfl rfl rfl
    owed := fun _ => rfl
    arrays_wf := fun a => (hok a).wf
    arrays_bounded := fun a => (hok a).bounded
    tx_written := fun _ i hi =>
      (isSome_get?_writeBytes ..).mpr (.inl ⟨Nat.zero_le i, by simpa using hi⟩) }

theorem Inv.send {s : State} (h : Inv s) (cmd : Bool) (br : Br) (now : Time) {data : List Byte}
    (hl : s.dataLegal data = true) : Inv (s.send cmd br now data) := by
  rcases send_cases cmd br now data s with ⟨-, he⟩ | ⟨-, -, he⟩ | ⟨-, -, he⟩ <;> rw [he]
  · exact (h.raise .busy).emit rfl
  · cases cmd
    · exact (h.startTransfer now hl).emit rfl
    · exact ((h.recordPending now hl).startTransfer now hl).emit rfl
  · exact h.emit rfl

theorem Inv.schedulerTick {s : State} (h : Inv s) (br : Br) (now : Time) :
    Inv (s.schedulerTick br now) := by
  have hl := dataLegal_kaText s
  rcases schedulerTick_cases br now s with ⟨-, he⟩ | ⟨-, -, he⟩ | ⟨-, -, -, he⟩ <;> rw [he]
  · exact h
  · exact h.setSchedRef now
  · exact (h.recordPending now hl).startTransfer now hl

theorem Inv.completeTransfer {s : State} (h : Inv s) : Inv s.completeTransfer :=
  { h with
    txLen_pos := nofun
    drain_ok := fun d hd => (h.drain_ok d hd).transfer rfl rfl rfl rfl rfl
    owed := nofun
    tx_written := nofun }

/-! ## Every event, every step, every reachable state -/

/-- R104: an event keeps the invariants if its body does where it is enabled. -/
theorem Inv.accept {s t u : State} {enabled : Bool} (h : Inv s) (ht : enabled = true → Inv t)
    (hu : s.accept enabled t = .next u) : Inv u := by
  cases enabled <;> cases hu
  · exact h.reject
  · exact ht rfl

theorem Inv.exec {i : Instr} {s t : State} (h : Inv s) (ht : exec i s = .next t) : Inv t := by
  cases i with
  | reset => cases ht; exact restart_inv s
  | start => exact h.accept (fun he => h.armReceiver (by simp_all)) ht
  | rxbyte b =>
    cases ht
    split
    · exact h.storeByte ‹_› b
    · exact h
  | idle => exact h.accept (fun _ => h.drainSpan) ht
  | txdone => exact h.accept (fun _ => h.completeTransfer) ht
  | idle1 => exact h.accept (fun _ => h.beginDrain) ht
  | idle2 => exact h.accept h.deliverNext_of_canDeliver ht
  | idle3 => exact h.accept (fun _ => h.endDrain) ht
  | sendd br now data => exact h.accept (fun he => h.send false br now (by simp_all)) ht
  | sendc br now data => exact h.accept (fun he => h.send true br now (by simp_all)) ht
  | poll br now => exact h.accept (fun _ => h.schedulerTick br now) ht

/-- Settles O44: by the cases of `step`, each event by the lemma of its body. -/
theorem invKeptByEveryStep : Obligations.InvKeptByEveryStep := by
  intro s t h ht
  unfold step at ht
  split at ht
  · cases ht; exact h
  · exact (h.withStream _).exec ht
  · cases ht; exact (h.withStream _).reject

/-- Settles O45, by induction on how the state is reached. -/
theorem invHoldsInReachableStates : Obligations.InvHoldsInReachableStates := by
  intro s hs
  induction hs with
  | afterReset h => cases h; exact restart_inv _
  | afterStep _ h ih => exact invKeptByEveryStep _ _ ih h

end Sys2Proof.Machine

/-! # What no event reads: the ghosts, `rx_seen`, the unwritten elements (R24, R41, R45) -/

namespace Sys2Proof.Machine

/-! ## The updates the events are made of -/

/-- The updates of the state that the events are made of, below the tests and the choices (R13, R14).
`RESET` is none of them: it is an event of one update. -/
inductive Update
  | emit (r : Record)
  | raise (c : Condition)
  | setPos (p : Nat)
  | setFlag (f : Flag) (v : Bool)
  | setCursor (n : Nat)
  | setSchedRef (now : Time)
  | armReceiver
  | completeTransfer
  | storeByte (b : Byte)
  | cutMessage
  | overflow
  | appendByte (b : Byte)
  | beginDrain
  | endDrain
  | recordPending (now : Time) (data : List Byte)
  | startTransfer (now : Time) (data : List Byte)

/-- The model's operation that an update names. -/
def Update.apply (s : State) : Update → State
  | .emit r => s.emit r
  | .raise c => s.raise c
  | .setPos p => s.setPos p
  | .setFlag f v => s.setFlag f v
  | .setCursor n => { s with cursor := n }
  | .setSchedRef now => { s with schedRef := now }
  | .armReceiver => s.armReceiver
  | .completeTransfer => s.completeTransfer
  | .storeByte b => s.storeByte b
  | .cutMessage => s.cutMessage
  | .overflow => s.overflow
  | .appendByte b => s.appendByte b
  | .beginDrain => s.beginDrain
  | .endDrain => s.endDrain
  | .recordPending now data => s.recordPending now data
  | .startTransfer now data => s.startTransfer now data

/-! ## Views that hide only what no event reads -/

/-- The part of the state that the tests, the reads and the choices of the events look at: all but the
ghosts (R45), `rx_seen` (R24), `pend_time` (R189), and what travels beside the block. -/
def State.shown (s : State) : State :=
  { s with
    wTotal := 0, cTotal := 0, rxSeen := false, pendTime := 0
    drain := s.drain.map fun d => { d with ws := 0 }
    stream := [], txOwed := false, diag := [] }

/-- A view of states hides only what no event reads when it keeps what is shown, and what it shows after
an update is a matter of what it showed before. -/
structure HidesUnread (view : State → State) : Prop where
  shown : ∀ s, (view s).shown = s.shown
  update : ∀ (o : Update) (s : State), view (o.apply s) = view (o.apply (view s))
  restart : ∀ s, view s.restart = view (view s).restart

/-! ### Tests and reads are matters of what is shown -/

theorem drained_shown (s : State) : s.drained = s.shown.drained := by
  cases hd : s.drain <;> simp [State.drained, State.shown, hd]

theorem stopped_shown (s : State) : s.stopped = s.shown.stopped := by
  cases hd : s.drain <;> simp [State.stopped, State.shown, hd]

theorem idleRun_shown (s : State) : s.idleRun = s.shown.idleRun := by
  simp [State.idleRun, State.shown]

theorem drainPos_shown (s : State) : s.drain.map Drain.pos = s.shown.drain.map Drain.pos := by
  cases hd : s.drain <;> simp [State.shown, hd]

theorem canDeliver_shown (s : State) : s.canDeliver = s.shown.canDeliver := by
  unfold State.canDeliver
  rw [idleRun_shown, drained_shown]

theorem canFinish_shown (s : State) : s.canFinish = s.shown.canFinish := by
  unfold State.canFinish
  rw [idleRun_shown, drained_shown]

namespace HidesUnread

variable {view : State → State} (hv : HidesUnread view) {s u t v : State}
include hv

/-- What is read off the shown part is the same in two states that look alike. -/
theorem read {α : Type} (h : view s = view u) (f : State → α) (hf : ∀ s, f s = f s.shown) :
    f s = f u := by
  rw [hf s, hf u, ← hv.shown s, h, hv.shown u]

theorem params (h : view s = view u) : s.params = u.params := hv.read h State.params fun _ => rfl

/-- An update keeps two states looking alike. -/
theorem apply (h : view s = view u) (o : Update) : view (o.apply s) = view (o.apply u) := by
  rw [hv.update, h, ← hv.update]

omit hv in
/-- A choice on a test that answers alike. -/
theorem ite {c d : Bool} (hc : c = d) (h1 : view s = view u) (h2 : view t = view v) :
    view (if c then s else t) = view (if d then u else v) := by
  subst hc
  split
  · exact h1
  · exact h2

/-! ### The line decoder and the correlator (R161 to R164, R181) -/

theorem correlate (h : view s = view u) (text : List Byte) :
    view (s.correlate text) = view (u.correlate text) :=
  ite (hv.read h (fun s => s.isEcho text) fun _ => rfl) (hv.apply h (.setFlag .pendValid false))
    (hv.apply h (.emit (.msg text)))

theorem applyScanPolicy (h : view s = view u) : view s.applyScanPolicy = view u.applyScanPolicy := by
  unfold State.applyScanPolicy
  rw [hv.params h]
  split
  · exact hv.apply h (.setFlag .stop true)
  · exact h

theorem complete (h : view s = view u) : view s.complete = view u.complete := by
  have hcut := hv.apply h .cutMessage
  have htext : s.cutMessage.messageText = u.cutMessage.messageText :=
    hv.read hcut State.messageText fun _ => rfl
  unfold State.complete
  rw [htext]
  have hcor := hv.correlate hcut u.cutMessage.messageText
  exact hv.apply (hv.applyScanPolicy (hv.apply hcor (.setFlag .ready false))) (.setCursor 0)

theorem ingest (h : view s = view u) (b : Byte) : view (s.ingest b) = view (u.ingest b) := by
  have happ := hv.apply h (.appendByte b)
  exact ite (hv.read h State.assemblerFull fun _ => rfl) (hv.apply h .overflow)
    (ite (hv.read happ State.terminated fun _ => rfl) (hv.complete happ) happ)

/-! ### The drain (R145 to R149) -/

theorem deliver (h : view s = view u) (b : Byte) : view (s.deliver b) = view (u.deliver b) :=
  ite (hv.read h State.stopped stopped_shown) h (hv.ingest h b)

theorem deliverNext (h : view s = view u) : view s.deliverNext = view u.deliverNext := by
  have hpos := hv.read h (fun s => s.drain.map Drain.pos) drainPos_shown
  cases hd : s.drain with
  | none =>
    have hu : u.drain = none := by simpa [hd] using hpos.symm
    rwa [deliverNext_none hd, deliverNext_none hu]
  | some d =>
    obtain ⟨e, hu, he⟩ : ∃ e, u.drain = some e ∧ e.pos = d.pos := by simpa [hd] using hpos.symm
    rw [deliverNext_eq hd, deliverNext_eq hu, he,
      hv.read h (fun s => s.ringAt d.pos) fun _ => rfl,
      hv.read h (fun s => s.nextIndex d.pos) fun _ => rfl]
    exact hv.apply (hv.deliver h _) (.setPos _)

theorem drainLoop (h : view s = view u) (fuel : Nat) :
    view (State.drainLoop fuel s) = view (State.drainLoop fuel u) := by
  induction fuel generalizing s u with
  | zero => exact h
  | succ k ih => exact ite (hv.read h State.drained drained_shown) h (ih (hv.deliverNext h))

theorem drainSpan (h : view s = view u) : view s.drainSpan = view u.drainSpan := by
  unfold State.drainSpan
  rw [hv.params h]
  exact hv.apply (hv.drainLoop (hv.apply h .beginDrain) _) .endDrain

/-! ### The transmit gate and the scheduler (R197, R198, R207) -/

theorem inFlight (h : view s = view u) : s.inFlight = u.inFlight :=
  hv.read h (fun s => s.inFlight) fun _ => rfl

theorem begun (h : view s = view u) (cmd : Bool) (br : Br) (now : Time) (data : List Byte) :
    view (s.begun cmd br now data) = view (u.begun cmd br now data) := by
  cases br with
  | ok => exact hv.apply (ite rfl (hv.apply h (.recordPending now data)) h) (.startTransfer now data)
  | busy => exact h
  | error => exact h

theorem send (h : view s = view u) (cmd : Bool) (br : Br) (now : Time) (data : List Byte) :
    view (s.send cmd br now data) = view (u.send cmd br now data) :=
  ite (hv.inFlight h) (hv.apply (hv.apply h (.raise .busy)) (.emit (.res .busy)))
    (hv.apply (hv.begun h cmd br now data) (.emit (.res (beginResult br))))

theorem keepAlive (h : view s = view u) (br : Br) (now : Time) :
    view (s.keepAlive br now) = view (u.keepAlive br now) := by
  unfold State.keepAlive
  rw [hv.params h]
  exact ite (hv.inFlight h) h (hv.begun h true br now _)

theorem schedulerTick (h : view s = view u) (br : Br) (now : Time) :
    view (s.schedulerTick br now) = view (u.schedulerTick br now) :=
  ite (hv.read h (fun s => s.elapsed now) fun _ => rfl)
    (hv.apply (hv.keepAlive h br now) (.setSchedRef now)) h

/-! ### Every event -/

theorem accept (h : view s = view u) (enabled : State → Bool)
    (he : ∀ s, enabled s = enabled s.shown) (ht : view t = view v) :
    mapOutcome view (s.accept (enabled s) t) = mapOutcome view (u.accept (enabled u) v) :=
  congrArg Host.Outcome.next (ite (hv.read h enabled he) ht (hv.apply h (.emit .reject)))

/-- Two states that look alike look alike after every event. -/
theorem exec (h : view s = view u) (i : Instr) :
    mapOutcome view (exec i s) = mapOutcome view (exec i u) := by
  have hidle : ∀ s : State, (!s.idleRun) = !s.shown.idleRun := fun s => by rw [idleRun_shown]
  cases i with
  | reset =>
    exact congrArg Host.Outcome.next ((hv.restart s).trans (h ▸ (hv.restart u).symm))
  | start =>
    exact hv.accept h (fun s => !s.armed && !s.idleRun)
      (fun s => congrArg (!s.armed && ·) (hidle s)) (hv.apply h .armReceiver)
  | rxbyte b =>
    exact congrArg Host.Outcome.next
      (ite (hv.read h (fun s => s.armed) fun _ => rfl) (hv.apply h (.storeByte b)) h)
  | idle => exact hv.accept h (fun s => !s.idleRun) hidle (hv.drainSpan h)
  | txdone => exact hv.accept h (fun s => !s.idleRun) hidle (hv.apply h .completeTransfer)
  | idle1 => exact hv.accept h (fun s => !s.idleRun) hidle (hv.apply h .beginDrain)
  | idle2 => exact hv.accept h State.canDeliver canDeliver_shown (hv.deliverNext h)
  | idle3 => exact hv.accept h State.canFinish canFinish_shown (hv.apply h .endDrain)
  | sendd br now data =>
    exact hv.accept h (fun s => s.dataLegal data && !s.idleRun)
      (fun s => congrArg (s.dataLegal data && ·) (hidle s)) (hv.send h false br now data)
  | sendc br now data =>
    exact hv.accept h (fun s => s.dataLegal data && !s.idleRun)
      (fun s => congrArg (s.dataLegal data && ·) (hidle s)) (hv.send h true br now data)
  | poll br now => exact hv.accept h (fun s => !s.idleRun) hidle (hv.schedulerTick h br now)

end HidesUnread

/-! ## The ghosts (R45) -/

/-- A drain without its ghost. -/
def Drain.forgetGhost (d : Drain) : Drain := { d with ws := 0 }

/-- Two states look alike without the ghosts if their drains do and the rest does. -/
theorem forgetGhosts_congr {s u : State}
    (hdrain : s.drain.map Drain.forgetGhost = u.drain.map Drain.forgetGhost)
    (hrest : ({ s with wTotal := 0, cTotal := 0, diag := [], drain := none } : State) =
      { u with wTotal := 0, cTotal := 0, diag := [], drain := none }) :
    s.forgetGhosts = u.forgetGhosts :=
  calc s.forgetGhosts
    _ = { ({ s with wTotal := 0, cTotal := 0, diag := [], drain := none } : State) with
          drain := s.drain.map Drain.forgetGhost } := rfl
    _ = { ({ u with wTotal := 0, cTotal := 0, diag := [], drain := none } : State) with
          drain := u.drain.map Drain.forgetGhost } := by rw [hrest, hdrain]
    _ = u.forgetGhosts := rfl

/-- The overrun test is the one use of the ghosts, and it decides only what the diagnostic trace
says. -/
theorem forgetGhosts_hidesUnread : HidesUnread State.forgetGhosts where
  shown := fun s => by cases hd : s.drain <;> simp [State.shown, State.forgetGhosts, hd]
  update := fun o s => by
    have hdrain : s.drain.map Drain.forgetGhost = s.forgetGhosts.drain.map Drain.forgetGhost := by
      cases hd : s.drain <;> simp [State.forgetGhosts, Drain.forgetGhost, hd]
    cases o with
    | beginDrain => rfl
    | endDrain => cases hd : s.drain <;> simp [Update.apply, State.endDrain, State.forgetGhosts, hd]
    | setPos p => simp [Update.apply, State.forgetGhosts, State.setPos, Function.comp_def]
    | setFlag f v =>
      cases f with
      | stop => simp [Update.apply, State.forgetGhosts, Function.comp_def]
      | _ => exact forgetGhosts_congr hdrain rfl
    | storeByte b =>
      simp only [Update.apply, storeByte_eq]
      exact forgetGhosts_congr hdrain rfl
    | _ => exact forgetGhosts_congr hdrain rfl
  restart := fun _ => rfl

/-- Settles O49. -/
theorem ghostsAreNeverRead : Obligations.GhostsAreNeverRead :=
  fun i _ _ h => forgetGhosts_hidesUnread.exec h i

/-! ## `rx_seen` (R24, R141) -/

/-- The state with `rx_seen` wiped. -/
def State.forgetRxSeen (s : State) : State := { s with rxSeen := false }

theorem forgetRxSeen_hidesUnread : HidesUnread State.forgetRxSeen where
  shown := fun _ => rfl
  update := fun o s => by
    cases o with
    | storeByte b => simp only [Update.apply, storeByte_eq]; rfl
    | endDrain => cases hd : s.drain <;> simp [Update.apply, State.endDrain, State.forgetRxSeen, hd]
    | setFlag f v => cases f <;> rfl
    | _ => rfl
  restart := fun _ => rfl

/-- States that look alike without `rx_seen` differ in `rx_seen` alone. -/
theorem eq_of_forgetRxSeen_eq {s u : State} (h : s.forgetRxSeen = u.forgetRxSeen) :
    u = { s with rxSeen := u.rxSeen } :=
  calc u = { u.forgetRxSeen with rxSeen := u.rxSeen } := rfl
    _ = { s.forgetRxSeen with rxSeen := u.rxSeen } := by rw [h]
    _ = { s with rxSeen := u.rxSeen } := rfl

/-- Settles O51. -/
theorem rxSeenIsNeverRead : Obligations.RxSeenIsNeverRead := by
  intro i s x
  obtain ⟨t, ht, -⟩ := exec_stepBlock i s
  obtain ⟨u, hu, -⟩ := exec_stepBlock i { s with rxSeen := x }
  have halike := forgetRxSeen_hidesUnread.exec (s := s) (u := { s with rxSeen := x }) rfl i
  rw [ht, hu] at halike
  have hu' := eq_of_forgetRxSeen_eq (Host.Outcome.next.inj halike)
  exact ⟨t, u.rxSeen, ht, hu.trans (congrArg Host.Outcome.next hu')⟩

/-! ## Unwritten elements (R34, R41, R148) -/

/-- The state with another family of free values for its unwritten elements (log 4, 5). -/
def State.withEpoch (e : Nat) (s : State) : State := { s with epoch := e }

/-- The updates read no element. -/
theorem Update.apply_withEpoch (o : Update) (s : State) (e : Nat) :
    o.apply (s.withEpoch e) = (o.apply s).withEpoch e := by
  cases o with
  | storeByte b => simp only [Update.apply, storeByte_eq]; rfl
  | endDrain => cases hd : s.drain <;> simp [Update.apply, State.endDrain, State.withEpoch, hd]
  | setFlag f v => cases f <;> rfl
  | _ => rfl

section
variable {s : State} (e : Nat)

/-! ### Reads of written elements -/

/-- A written element holds a value, whatever the unwritten ones read as. -/
theorem elem_withEpoch {a : Config.ArrayName} {i : Nat} (h : s.written a i) :
    (s.withEpoch e).elem a i = s.elem a i := by
  obtain ⟨b, hb⟩ := Option.isSome_iff_exists.mp h
  rw [elem_of_get? hb, elem_of_get? (s := s.withEpoch e) (show _ = some b from hb)]

theorem prefixBytes_withEpoch {a : Config.ArrayName} {n : Nat} (h : ∀ i, i < n → s.written a i) :
    (s.withEpoch e).prefixBytes a n = s.prefixBytes a n :=
  prefixBytes_congr fun i hi => elem_withEpoch e (h i hi)

theorem terminated_withEpoch (h : ∀ i, i < s.cursor → s.written .asm i) :
    (s.withEpoch e).terminated = s.terminated := by
  rw [Bool.eq_iff_iff, terminated_iff, terminated_iff]
  refine and_congr_right fun (h2 : 2 ≤ s.cursor) => ?_
  rw [show (s.withEpoch e).cursor = s.cursor from rfl,
    elem_withEpoch e (h _ (by omega)), elem_withEpoch e (h _ (by omega))]

/-- R41: the pending command is read while it is valid only, and then it has been written. -/
theorem isEcho_withEpoch
    (h : s.pendValid = true → ∀ i, i < s.pendLen → s.written .pendText i) (text : List Byte) :
    (s.withEpoch e).isEcho text = s.isEcho text := by
  unfold State.isEcho
  by_cases hp : s.pendValid = true
  · have hcmd : (s.withEpoch e).pendCommand = s.pendCommand :=
      prefixBytes_withEpoch e fun i hi => h hp i (lt_of_lt_of_le hi (Nat.min_le_left _ _))
    rw [hcmd]
    rfl
  · simp [State.withEpoch, hp]

/-! ### The line decoder and the correlator -/

theorem correlate_withEpoch
    (h : s.pendValid = true → ∀ i, i < s.pendLen → s.written .pendText i) (text : List Byte) :
    (s.withEpoch e).correlate text = (s.correlate text).withEpoch e := by
  unfold State.correlate
  rw [isEcho_withEpoch e h]
  split <;> rfl

theorem applyScanPolicy_withEpoch (s : State) :
    (s.withEpoch e).applyScanPolicy = s.applyScanPolicy.withEpoch e := by
  unfold State.applyScanPolicy
  rw [show (s.withEpoch e).params = s.params from rfl]
  split <;> rfl

/-- R163: the message is a part of what has been assembled; the cut does not unwrite it. -/
theorem complete_withEpoch (hasm : ∀ i, i < s.cursor → s.written .asm i)
    (hpend : s.pendValid = true → ∀ i, i < s.pendLen → s.written .pendText i) :
    (s.withEpoch e).complete = s.complete.withEpoch e := by
  have hcut : (s.withEpoch e).cutMessage = s.cutMessage.withEpoch e := rfl
  have htext : (s.cutMessage.withEpoch e).messageText = s.cutMessage.messageText :=
    prefixBytes_withEpoch e fun i (hi : i < s.cursor - 2) =>
      (isSome_get?_write ..).mpr (.inr (hasm i (by omega)))
  unfold State.complete
  have hready (t : State) :
      (t.withEpoch e).setFlag .ready false = (t.setFlag .ready false).withEpoch e := rfl
  rw [hcut, htext, correlate_withEpoch (s := s.cutMessage) e hpend, hready,
    applyScanPolicy_withEpoch]
  rfl

theorem ingest_withEpoch (hasm : ∀ i, i < s.cursor → s.written .asm i)
    (hpend : s.pendValid = true → ∀ i, i < s.pendLen → s.written .pendText i) (b : Byte) :
    (s.withEpoch e).ingest b = (s.ingest b).withEpoch e := by
  have happ : (s.withEpoch e).appendByte b = (s.appendByte b).withEpoch e := rfl
  have hasm' := written_asm_appendByte hasm b
  unfold State.ingest
  rw [happ, terminated_withEpoch e hasm', complete_withEpoch e hasm' hpend,
    show (s.withEpoch e).assemblerFull = s.assemblerFull from rfl]
  split
  · rfl
  · split <;> rfl

end

/-! ### The drain -/

/-- R148: what a drain is about to deliver the producer has stored. Either the ring has been filled once
over, or `pos` lies between `consumed` and the sampled position and no wrap has happened yet. -/
theorem Inv.written_pos {s : State} (h : Inv s) {d : Drain} (hd : s.drain = some d)
    (hne : d.pos ≠ d.wp) : s.written .ring d.pos := by
  have hok := h.drain_ok d hd
  have hpos := hok.pos_lt
  refine h.ring_written d.pos hpos ?_
  by_cases hfull : s.params.capacity ≤ s.wTotal
  · omega
  · have hge := hok.sampled_ge
    have hle := hok.sampled_le
    have hwp : d.wp = d.ws := hok.wp_eq.trans (Nat.mod_eq_of_lt (by omega))
    have hcons : s.consumed = s.cTotal := h.consumed_eq.trans (Nat.mod_eq_of_lt (by omega))
    have hspan := hok.pos_in_span
    rw [ringDistance_eq s hpos (by omega), ringDistance_eq s h.consumed_lt (by omega),
      if_pos (show s.consumed ≤ d.wp by omega)] at hspan
    split at hspan <;> omega

theorem Inv.deliverNext_withEpoch {s : State} (h : Inv s) (hc : s.canDeliver = true) (e : Nat) :
    (s.withEpoch e).deliverNext = s.deliverNext.withEpoch e := by
  obtain ⟨d, hd, hne⟩ := (canDeliver_iff s).mp hc
  have hbyte : (s.withEpoch e).ringAt d.pos = s.ringAt d.pos :=
    elem_withEpoch e ((Nat.mod_eq_of_lt (h.drain_ok d hd).pos_lt).symm ▸ h.written_pos hd hne)
  have hdeliver (b : Byte) : (s.withEpoch e).deliver b = (s.deliver b).withEpoch e := by
    unfold State.deliver
    rw [ingest_withEpoch e h.asm_written h.pend_written,
      show (s.withEpoch e).stopped = s.stopped from rfl]
    split <;> rfl
  rw [deliverNext_eq hd, deliverNext_eq (s := s.withEpoch e) hd, hbyte, hdeliver]
  rfl

theorem Inv.drainLoop_withEpoch {s : State} (h : Inv s) (e fuel : Nat) :
    State.drainLoop fuel (s.withEpoch e) = (State.drainLoop fuel s).withEpoch e := by
  induction fuel generalizing s with
  | zero => rfl
  | succ k ih =>
    unfold State.drainLoop
    rw [show (s.withEpoch e).drained = s.drained from rfl]
    split
    · rfl
    · have hc := canDeliver_of_not_drained ‹_›
      rw [h.deliverNext_withEpoch hc, ih (h.deliverNext_of_canDeliver hc)]

theorem Inv.drainSpan_withEpoch {s : State} (h : Inv s) (e : Nat) :
    (s.withEpoch e).drainSpan = s.drainSpan.withEpoch e := by
  unfold State.drainSpan
  rw [show (s.withEpoch e).beginDrain = s.beginDrain.withEpoch e from rfl,
    show (s.withEpoch e).params = s.params from rfl, h.beginDrain.drainLoop_withEpoch]
  exact Update.apply_withEpoch .endDrain _ e

/-! ### The transmit gate and the scheduler read no element -/

theorem begun_withEpoch (s : State) (cmd : Bool) (br : Br) (now : Time) (data : List Byte) (e : Nat) :
    (s.withEpoch e).begun cmd br now data = (s.begun cmd br now data).withEpoch e := by
  cases br with
  | ok => cases cmd <;> rfl
  | busy => rfl
  | error => rfl

theorem send_withEpoch (s : State) (cmd : Bool) (br : Br) (now : Time) (data : List Byte) (e : Nat) :
    (s.withEpoch e).send cmd br now data = (s.send cmd br now data).withEpoch e := by
  unfold State.send
  rw [begun_withEpoch, show (s.withEpoch e).inFlight = s.inFlight from rfl]
  split <;> rfl

theorem keepAlive_withEpoch (s : State) (br : Br) (now : Time) (e : Nat) :
    (s.withEpoch e).keepAlive br now = (s.keepAlive br now).withEpoch e := by
  unfold State.keepAlive
  rw [begun_withEpoch, show (s.withEpoch e).inFlight = s.inFlight from rfl]
  split <;> rfl

theorem schedulerTick_withEpoch (s : State) (br : Br) (now : Time) (e : Nat) :
    (s.withEpoch e).schedulerTick br now = (s.schedulerTick br now).withEpoch e := by
  unfold State.schedulerTick
  rw [keepAlive_withEpoch, show (s.withEpoch e).elapsed now = s.elapsed now from rfl]
  split <;> rfl

/-! ### Every event but `RESET` -/

/-- R104: an event whose test reads no element does the same if its body does where it is enabled. -/
theorem accept_withEpoch {s t t' : State} {enabled : Bool} {e : Nat}
    (ht : enabled = true → t' = t.withEpoch e) :
    ∃ u, s.accept enabled t = .next u ∧
      (s.withEpoch e).accept enabled t' = .next (u.withEpoch e) := by
  cases enabled
  · exact ⟨s.reject, rfl, rfl⟩
  · exact ⟨t, rfl, congrArg Host.Outcome.next (ht rfl)⟩

/-- Settles O48: every event on the state with the other family, by the lemma of its body. -/
theorem unspecifiedContentsAreNeverObserved : Obligations.UnspecifiedContentsAreNeverObserved := by
  intro i s e h hre
  change ∃ t, exec i s = .next t ∧ exec i (s.withEpoch e) = .next (t.withEpoch e)
  have happly (o : Update) := o.apply_withEpoch s e
  cases i with
  | reset => exact absurd rfl hre
  | start => exact accept_withEpoch fun _ => happly .armReceiver
  | rxbyte b =>
    refine ⟨_, rfl, congrArg Host.Outcome.next ?_⟩
    rw [show (s.withEpoch e).armed = s.armed from rfl]
    split
    · exact happly (.storeByte b)
    · rfl
  | idle => exact accept_withEpoch fun _ => h.drainSpan_withEpoch e
  | txdone => exact accept_withEpoch fun _ => happly .completeTransfer
  | idle1 => exact accept_withEpoch fun _ => happly .beginDrain
  | idle2 => exact accept_withEpoch fun hc => h.deliverNext_withEpoch hc e
  | idle3 => exact accept_withEpoch fun _ => happly .endDrain
  | sendd br now data => exact accept_withEpoch fun _ => send_withEpoch s false br now data e
  | sendc br now data => exact accept_withEpoch fun _ => send_withEpoch s true br now data e
  | poll br now => exact accept_withEpoch fun _ => schedulerTick_withEpoch s br now e

end Sys2Proof.Machine

/-! # The producer and the drain: the write position, stores inside a drain (R61, R74, R124) -/

namespace Sys2Proof.Machine

/-! ## The write position (R124) -/

/-- R61, R124: with `remaining` in its range, a stored byte moves the write position to the next ring
index: counting down moves it up by one, and the reload is the wrap from CAPACITY - 1 to 0. -/
theorem writePos_storeByte {s : State} (hpos : 1 ≤ s.remaining)
    (hle : s.remaining ≤ s.params.capacity) (b : Byte) :
    (s.storeByte b).writePos = s.nextIndex s.writePos := by
  rw [storeByte_eq]
  change (s.params.capacity - s.countDown) % _ = ((s.params.capacity - s.remaining) % _ + 1) % _
  rw [Nat.mod_add_mod]
  unfold State.countDown
  split
  · have hend : s.params.capacity - s.remaining + 1 = s.params.capacity := by omega
    rw [hend, Nat.sub_self, Nat.zero_mod, Nat.mod_self]
  · congr 1
    omega

/-- Settles O7. -/
theorem rxbyteAdvancesWritePosition : Obligations.RxbyteAdvancesWritePosition := by
  intro b s harmed hpos hle
  have hexec : exec (.rxbyte b) s = .next (s.storeByte b) :=
    congrArg Host.Outcome.next (if_pos harmed)
  obtain ⟨hpos', hle'⟩ := countDown_range s hpos hle
  refine ⟨_, hexec, writePos_storeByte hpos hle b, ?_⟩
  rw [storeByte_eq]
  exact ⟨hpos', hle'⟩

/-! ## Runs, with the diagnostic trace hidden (R14) -/

theorem forgetDiag_hidesUnread : HidesUnread State.forgetDiag where
  shown := fun _ => rfl
  update := fun o s => by
    cases o with
    | storeByte b => simp only [Update.apply, storeByte_eq]; rfl
    | endDrain => cases hd : s.drain <;> simp [Update.apply, State.endDrain, State.forgetDiag, hd]
    | setFlag f v => cases f <;> rfl
    | _ => rfl
  restart := fun _ => rfl

theorem runEvents_cons {i : Instr} {s t : State} (h : exec i s = .next t) (trace : List Instr) :
    runEvents (i :: trace) s = runEvents trace t := by
  simp [runEvents, h]

/-- Two states that look alike look alike after every trace. -/
theorem HidesUnread.runEvents {view : State → State} (hv : HidesUnread view) {s u : State}
    (h : view s = view u) (trace : List Instr) :
    mapOutcome view (runEvents trace s) = mapOutcome view (runEvents trace u) := by
  induction trace generalizing s u with
  | nil => exact congrArg Host.Outcome.next h
  | cons i trace ih =>
    obtain ⟨t, ht, -⟩ := exec_stepBlock i s
    obtain ⟨v, hu, -⟩ := exec_stepBlock i u
    have halike := hv.exec h i
    rw [ht, hu] at halike
    rw [runEvents_cons ht, runEvents_cons hu]
    exact ih (Host.Outcome.next.inj halike)

theorem HidesUnread.iterate_deliverNext {view : State → State} (hv : HidesUnread view) {s u : State}
    (h : view s = view u) (n : Nat) :
    view (State.deliverNext^[n] s) = view (State.deliverNext^[n] u) := by
  induction n generalizing s u with
  | zero => exact h
  | succ k ih => exact ih (hv.deliverNext h)

theorem exec_idle {s : State} (h : s.drain = none) : exec .idle s = .next s.drainSpan := by
  change s.accept (!s.idleRun) s.drainSpan = _
  simp [State.idleRun, h]

theorem exec_idle1 {s : State} (h : s.drain = none) : exec .idle1 s = .next s.beginDrain := by
  change s.accept (!s.idleRun) s.beginDrain = _
  simp [State.idleRun, h]

theorem exec_idle2 {s : State} (h : s.canDeliver = true) : exec .idle2 s = .next s.deliverNext := by
  change s.accept s.canDeliver s.deliverNext = _
  rw [h, accept_true]

theorem exec_idle3 {s : State} {d : Drain} (hd : s.drain = some d) (h : d.pos = d.wp) :
    exec .idle3 s = .next s.endDrain := by
  change s.accept s.canFinish s.endDrain = _
  simp [State.canFinish, State.idleRun, State.drained, hd, h]

/-! ## What `RXBYTE` does, armed or not (R123) -/

/-- The next state of `RXBYTE b` (R123). -/
def State.receive (b : Byte) (s : State) : State := if s.armed then s.storeByte b else s

theorem exec_rxbyte (b : Byte) (s : State) : exec (.rxbyte b) s = .next (s.receive b) := rfl

/-- The one event of agent P is `RXBYTE` (R9). -/
theorem eq_rxbyte_of_producer {i : Instr} (h : i.agent = .P) : ∃ b, i = .rxbyte b := by
  cases i
  case rxbyte b => exact ⟨b, rfl⟩
  all_goals cases h

theorem receive_onlyProducer (s : State) (b : Byte) : OnlyProducerState s (s.receive b) := by
  obtain ⟨t, ht, hprod⟩ := exec_producer (i := .rxbyte b) rfl s
  cases ht
  exact hprod

/-- `s` with the registers, the array and the ghost that agent P writes taken from `p` (R250). -/
def State.withProducer (s p : State) : State :=
  { s with ring := p.ring, remaining := p.remaining, rxSeen := p.rxSeen, wTotal := p.wTotal }

/-- What `RXBYTE` changes is what agent P writes, and diagnostics. -/
theorem receive_forgetDiag (s : State) (b : Byte) :
    (s.receive b).forgetDiag = (s.withProducer (s.receive b)).forgetDiag := by
  unfold State.receive
  split
  · rw [storeByte_eq]; rfl
  · rfl

/-- R123, R250: what the producer writes depends on nothing the interrupt context writes but `rx_seen`,
so it is the same before and after an event of that context that leaves `rx_seen` alone. -/
theorem withProducer_receive_of_onlyInterrupt {s t : State} (h : OnlyInterruptState s t)
    (hseen : t.rxSeen = s.rxSeen) (b : Byte) :
    (t.withProducer (s.receive b)).forgetDiag = (t.receive b).forgetDiag := by
  have hsame : t.withProducer (s.receive b) = t.withProducer (t.receive b) := by
    unfold State.receive
    rw [h.armed]
    split
    · simp [State.withProducer, storeByte_eq, State.writePos, State.countDown, h.params,
        h.remaining, h.ring, h.wTotal]
    · simp [State.withProducer, h.remaining, h.ring, h.wTotal, hseen]
  rw [hsame, ← receive_forgetDiag]

/-- R66: a received byte leaves every other index of the ring as it was. -/
theorem ringAt_receive {s : State} {i : Nat} (hi : i < s.params.capacity) (hne : i ≠ s.writePos)
    (b : Byte) : (s.receive b).ringAt i = s.ringAt i := by
  unfold State.receive
  split
  · have hring : (s.storeByte b).array .ring = (s.array .ring).write s.writePos b := by
      rw [storeByte_eq]; rfl
    have hepoch : (s.storeByte b).epoch = s.epoch := by rw [storeByte_eq]
    unfold State.ringAt
    rw [storeByte_params, Nat.mod_eq_of_lt hi, elem_of_write hring hepoch, if_neg hne]
  · rfl

/-! ## The interrupt context reads nothing the producer writes but the ring (R21, R250) -/

theorem correlate_withProducer (p s : State) (text : List Byte) :
    (s.withProducer p).correlate text = (s.correlate text).withProducer p := by
  unfold State.correlate
  rw [show (s.withProducer p).isEcho text = s.isEcho text from rfl]
  split <;> rfl

theorem applyScanPolicy_withProducer (p s : State) :
    (s.withProducer p).applyScanPolicy = s.applyScanPolicy.withProducer p := by
  unfold State.applyScanPolicy
  rw [show (s.withProducer p).params = s.params from rfl]
  split <;> rfl

theorem complete_withProducer (p s : State) :
    (s.withProducer p).complete = s.complete.withProducer p := by
  have hcut : (s.withProducer p).cutMessage = s.cutMessage.withProducer p := rfl
  have htext : (s.cutMessage.withProducer p).messageText = s.cutMessage.messageText := rfl
  have hready (t : State) :
      (t.withProducer p).setFlag .ready false = (t.setFlag .ready false).withProducer p := rfl
  unfold State.complete
  rw [hcut, htext, correlate_withProducer, hready, applyScanPolicy_withProducer]
  rfl

theorem ingest_withProducer (p s : State) (b : Byte) :
    (s.withProducer p).ingest b = (s.ingest b).withProducer p := by
  have happ : (s.withProducer p).appendByte b = (s.appendByte b).withProducer p := rfl
  unfold State.ingest
  rw [happ, complete_withProducer, show (s.withProducer p).assemblerFull = s.assemblerFull from rfl,
    show ((s.appendByte b).withProducer p).terminated = (s.appendByte b).terminated from rfl]
  split
  · rfl
  · split <;> rfl

theorem deliver_withProducer (p s : State) (b : Byte) :
    (s.withProducer p).deliver b = (s.deliver b).withProducer p := by
  unfold State.deliver
  rw [ingest_withProducer, show (s.withProducer p).stopped = s.stopped from rfl]
  split <;> rfl

/-- R147: micro-step 2 passes a change of the producer's state that leaves its byte alone. -/
theorem deliverNext_withProducer {p s : State} {d : Drain} (hd : s.drain = some d)
    (hbyte : (s.withProducer p).ringAt d.pos = s.ringAt d.pos) :
    (s.withProducer p).deliverNext = s.deliverNext.withProducer p := by
  rw [deliverNext_eq hd, deliverNext_eq (s := s.withProducer p) hd, hbyte, deliver_withProducer]
  rfl

theorem endDrain_withProducer (p s : State) :
    (s.withProducer p).endDrain = s.endDrain.withProducer p := by
  cases hd : s.drain <;> simp [State.endDrain, State.withProducer, hd]

/-! ## A store passes a micro-step -/

/-- R74: a byte stored anywhere but at `pos` may be moved from before a micro-step 2 to after it. -/
theorem deliverNext_receive {s : State} {d : Drain} (hd : s.drain = some d)
    (hpos : d.pos < s.params.capacity) (hne : d.pos ≠ s.writePos) (b : Byte) :
    (s.receive b).deliverNext.forgetDiag = (s.deliverNext.receive b).forgetDiag := by
  have hbyte : (s.withProducer (s.receive b)).ringAt d.pos = s.ringAt d.pos :=
    (forgetDiag_hidesUnread.read (receive_forgetDiag s b) (fun s => s.ringAt d.pos)
      fun _ => rfl).symm.trans (ringAt_receive hpos hne b)
  calc (s.receive b).deliverNext.forgetDiag
    _ = (s.withProducer (s.receive b)).deliverNext.forgetDiag :=
      forgetDiag_hidesUnread.deliverNext (receive_forgetDiag s b)
    _ = (s.deliverNext.withProducer (s.receive b)).forgetDiag := by
      rw [deliverNext_withProducer hd hbyte]
    _ = (s.deliverNext.receive b).forgetDiag :=
      withProducer_receive_of_onlyInterrupt (deliverNext_onlyInterrupt s) (deliverNext_rxSeen s) b

/-- R74: a stored byte may be moved from before micro-step 3 to after it. -/
theorem endDrain_receive (s : State) (b : Byte) :
    (s.receive b).endDrain.forgetDiag = (s.endDrain.receive b).forgetDiag := by
  have hseen : s.endDrain.rxSeen = s.rxSeen := by unfold State.endDrain; split <;> rfl
  calc (s.receive b).endDrain.forgetDiag
    _ = (s.withProducer (s.receive b)).endDrain.forgetDiag :=
      forgetDiag_hidesUnread.apply (receive_forgetDiag s b) .endDrain
    _ = (s.endDrain.withProducer (s.receive b)).forgetDiag := by rw [endDrain_withProducer]
    _ = (s.endDrain.receive b).forgetDiag :=
      withProducer_receive_of_onlyInterrupt (endDrain_onlyInterrupt s) hseen b

/-- Bytes received when every micro-step 2 is done may come after micro-step 3. -/
theorem runEvents_producers_idle3 {trace : List Instr} (htrace : ∀ i ∈ trace, i.agent = .P)
    {s : State} {d : Drain} (hd : s.drain = some d) (hdone : d.pos = d.wp) :
    mapOutcome State.forgetDiag (runEvents (trace ++ [.idle3]) s) =
      mapOutcome State.forgetDiag (runEvents trace s.endDrain) := by
  induction trace generalizing s with
  | nil => rw [List.nil_append, runEvents_cons (exec_idle3 hd hdone)]
  | cons i trace ih =>
    obtain ⟨hi, hrest⟩ := List.forall_mem_cons.mp htrace
    obtain ⟨b, rfl⟩ := eq_rxbyte_of_producer hi
    rw [List.cons_append, runEvents_cons (exec_rxbyte b s), runEvents_cons (exec_rxbyte b _),
      ih hrest ((receive_onlyProducer s b).drain.trans hd)]
    exact forgetDiag_hidesUnread.runEvents (endDrain_receive s b) trace

/-! ## A drain and the stores inside it (R74) -/

/-- In `s` the drain `d` runs, with `left` bytes still to deliver, and the write position is `stored`
indices beyond the one `d` sampled. -/
structure DrainAt (s : State) (d : Drain) (left stored : Nat) : Prop where
  running : s.drain = some d
  pos_lt : d.pos < s.params.capacity
  wp_lt : d.wp < s.params.capacity
  left_eq : s.ringDistance d.pos d.wp = left
  writePos_eq : s.writePos = (d.wp + stored) % s.params.capacity
  remaining_pos : 1 ≤ s.remaining
  remaining_le : s.remaining ≤ s.params.capacity

namespace DrainAt

variable {s : State} {d : Drain} {left stored : Nat}

theorem pos_eq_wp (h : DrainAt s d 0 stored) : d.pos = d.wp :=
  (ringDistance_eq_zero s h.pos_lt h.wp_lt).mp h.left_eq

theorem pos_ne_wp (h : DrainAt s d (left + 1) stored) : d.pos ≠ d.wp := fun heq => by
  have hzero := (ringDistance_eq_zero s h.pos_lt h.wp_lt).mpr heq
  have hleft := h.left_eq
  omega

theorem canDeliver (h : DrainAt s d (left + 1) stored) : s.canDeliver = true :=
  (canDeliver_iff s).mpr ⟨d, h.running, h.pos_ne_wp⟩

/-- R74: while the stored bytes fit beside those still to deliver, with one index to spare, the next one
is not stored where the drain reads next. -/
theorem pos_ne_writePos (h : DrainAt s d (left + 1) stored)
    (hroom : left + 1 + stored < s.params.capacity) : d.pos ≠ s.writePos := by
  have hpos := h.pos_lt
  have hwp := h.wp_lt
  have hleft := h.left_eq
  rw [ringDistance_eq s hpos hwp] at hleft
  rw [h.writePos_eq]
  by_cases hwrap : d.wp + stored < s.params.capacity
  · rw [Nat.mod_eq_of_lt hwrap]
    split at hleft <;> omega
  · rw [Nat.mod_eq_sub_mod (by omega), Nat.mod_eq_of_lt (by omega)]
    split at hleft <;> omega

/-- R146: micro-step 1 has the whole unread region to deliver, and samples the write position. -/
theorem beginDrain (hc : s.consumed < s.params.capacity) (hpos : 1 ≤ s.remaining)
    (hle : s.remaining ≤ s.params.capacity) : ∃ d, DrainAt s.beginDrain d s.unreadLen 0 :=
  ⟨_, {
    running := rfl
    pos_lt := hc
    wp_lt := writePos_lt s
    left_eq := rfl
    writePos_eq := (Nat.mod_eq_of_lt (writePos_lt s)).symm
    remaining_pos := hpos
    remaining_le := hle }⟩

/-- R147: micro-step 2 leaves one byte less to deliver. -/
theorem deliverNext (h : DrainAt s d (left + 1) stored) :
    ∃ d', DrainAt s.deliverNext d' left stored := by
  obtain ⟨stop, -, hd⟩ := deliverNext_drain h.running
  have hcloser := ringDistance_nextIndex s h.pos_lt h.wp_lt h.pos_ne_wp
  have hleft := h.left_eq
  exact ⟨_, {
    running := hd
    pos_lt := by simpa using nextIndex_lt s d.pos
    wp_lt := by simpa using h.wp_lt
    left_eq := by
      simp only [State.ringDistance, deliverNext_params] at hcloser hleft ⊢
      omega
    writePos_eq := by simpa [State.writePos] using h.writePos_eq
    remaining_pos := by simpa using h.remaining_pos
    remaining_le := by simpa using h.remaining_le }⟩

/-- R123: a byte received inside a drain moves the write position on, or is lost. -/
theorem receive (h : DrainAt s d left stored) (b : Byte) :
    ∃ stored' ≤ stored + 1, DrainAt (s.receive b) d left stored' := by
  unfold State.receive
  split
  · refine ⟨stored + 1, Nat.le_refl _, ?_⟩
    have hwp := writePos_storeByte h.remaining_pos h.remaining_le b
    obtain ⟨hpos, hle⟩ := countDown_range s h.remaining_pos h.remaining_le
    unfold State.nextIndex at hwp
    rw [h.writePos_eq, Nat.mod_add_mod] at hwp
    rw [storeByte_eq] at hwp ⊢
    exact { h with writePos_eq := hwp, remaining_pos := hpos, remaining_le := hle }
  · exact ⟨stored, Nat.le_succ stored, h⟩

/-- R151: with enough fuel the loop of `IDLE` is one micro-step 2 for each byte to deliver. -/
theorem drainLoop_eq (h : DrainAt s d left stored) {fuel : Nat} (hf : left ≤ fuel) :
    State.drainLoop fuel s = State.deliverNext^[left] s := by
  induction left generalizing s d fuel with
  | zero =>
    have hdrained : s.drained = true := by simp [State.drained, h.running, h.pos_eq_wp]
    cases fuel with
    | zero => rfl
    | succ k => exact if_pos hdrained
  | succ k ih =>
    obtain ⟨fuel, rfl⟩ : ∃ f, fuel = f + 1 := ⟨fuel - 1, by omega⟩
    have hdrained : ¬ s.drained = true := by simp [State.drained, h.running, h.pos_ne_wp]
    obtain ⟨d', h'⟩ := h.deliverNext
    rw [Function.iterate_succ_apply, ← ih h' (Nat.le_of_succ_le_succ hf)]
    exact if_neg hdrained

/-- As many micro-steps 2 as there are bytes left bring the drain to its end. -/
theorem iterate_deliverNext (h : DrainAt s d left stored) :
    ∃ d', DrainAt (State.deliverNext^[left] s) d' 0 stored := by
  induction left generalizing s d with
  | zero => exact ⟨d, h⟩
  | succ k ih =>
    obtain ⟨d', h'⟩ := h.deliverNext
    exact ih h'

/-- R74: a byte stored while there is room may be moved behind all deliveries still to come. -/
theorem iterate_deliverNext_receive (h : DrainAt s d left stored)
    (hroom : left + stored < s.params.capacity) (b : Byte) :
    (State.deliverNext^[left] (s.receive b)).forgetDiag =
      ((State.deliverNext^[left] s).receive b).forgetDiag := by
  induction left generalizing s d with
  | zero => rfl
  | succ k ih =>
    have hpass := deliverNext_receive h.running h.pos_lt (h.pos_ne_writePos hroom) b
    obtain ⟨d', h'⟩ := h.deliverNext
    calc (State.deliverNext^[k] (s.receive b).deliverNext).forgetDiag
      _ = (State.deliverNext^[k] (s.deliverNext.receive b)).forgetDiag :=
        forgetDiag_hidesUnread.iterate_deliverNext hpass k
      _ = ((State.deliverNext^[k] s.deliverNext).receive b).forgetDiag :=
        ih h' (by rw [deliverNext_params]; omega)

/-- R74: the deliveries of a drain may be moved before the bytes received between them. -/
theorem runEvents_deliveries_first (h : DrainAt s d left stored) {mid : List Instr}
    (hmid : ∀ i ∈ mid, i = .idle2 ∨ i.agent = .P)
    (hleft : mid.countP (fun i => decide (i = .idle2)) = left)
    (hroom : left + stored + mid.countP (fun i => decide (i.agent = .P)) ≤ s.params.capacity)
    (trace : List Instr) :
    mapOutcome State.forgetDiag (runEvents (mid ++ trace) s) =
      mapOutcome State.forgetDiag
        (runEvents (mid.filter (fun i => decide (i.agent = .P)) ++ trace)
          (State.deliverNext^[left] s)) := by
  induction mid generalizing s d left stored with
  | nil => subst hleft; rfl
  | cons i mid ih =>
    obtain ⟨hi, hrest⟩ := List.forall_mem_cons.mp hmid
    rcases hi with rfl | hi
    · rw [List.countP_cons_of_pos (by decide)] at hleft
      rw [List.countP_cons_of_neg (by decide)] at hroom
      subst hleft
      obtain ⟨d', h'⟩ := h.deliverNext
      rw [List.cons_append, runEvents_cons (exec_idle2 h.canDeliver),
        List.filter_cons_of_neg (by decide)]
      exact ih h' hrest rfl (by rw [deliverNext_params]; omega)
    · obtain ⟨b, rfl⟩ := eq_rxbyte_of_producer hi
      rw [List.countP_cons_of_neg (by simp)] at hleft
      rw [List.countP_cons_of_pos (by simpa using hi)] at hroom
      obtain ⟨stored', hstored, h'⟩ := h.receive b
      have hroom' : left + stored' + mid.countP (fun i => decide (i.agent = .P)) ≤
          (s.receive b).params.capacity := by
        rw [(receive_onlyProducer s b).params]
        omega
      rw [List.cons_append, runEvents_cons (exec_rxbyte b s), ih h' hrest hleft hroom',
        List.filter_cons_of_pos (by simpa using hi), List.cons_append,
        runEvents_cons (exec_rxbyte b _)]
      exact forgetDiag_hidesUnread.runEvents (h.iterate_deliverNext_receive (by omega) b) _

end DrainAt

/-- R145: what `IDLE` does is micro-step 1, one micro-step 2 for each unread byte, and micro-step 3. -/
theorem drainSpan_eq {s : State} {d : Drain} (h : DrainAt s.beginDrain d s.unreadLen 0) :
    s.drainSpan = (State.deliverNext^[s.unreadLen] s.beginDrain).endDrain :=
  congrArg State.endDrain (h.drainLoop_eq (Nat.le_of_lt (ringDistance_lt s _ _)))

/-- Settles O21: first the deliveries are moved before the stores inside the drain, then micro-step 3
before all stores; that is the atomic `IDLE` with the stores after it. -/
theorem shortDrainIsAtomic : Obligations.ShortDrainIsAtomic := by
  intro mid post s hidle hc hpos hle hmid hcount hfew
  obtain ⟨d, hbegin⟩ := DrainAt.beginDrain hc hpos hle
  obtain ⟨d', hend⟩ := hbegin.iterate_deliverNext
  have hlen : s.unreadLen < s.params.capacity := ringDistance_lt s _ _
  have hroom : s.unreadLen + 0 + mid.countP (fun i => decide (i.agent = .P)) ≤
      s.beginDrain.params.capacity := by
    rw [beginDrain_params]
    omega
  have hstores : ∀ i ∈ mid.filter (fun i => decide (i.agent = .P)) ++ Instr.rx post,
      i.agent = .P := by
    intro i hi
    rcases List.mem_append.mp hi with hi | hi
    · exact of_decide_eq_true (List.mem_filter.mp hi).2
    · obtain ⟨b, -, rfl⟩ := List.mem_map.mp hi
      rfl
  rw [runEvents_cons (exec_idle1 hidle), runEvents_cons (exec_idle hidle), drainSpan_eq hbegin,
    List.append_assoc, hbegin.runEvents_deliveries_first hmid hcount hroom, ← List.append_assoc]
  exact runEvents_producers_idle3 hstores hend.running hend.pos_eq_wp

end Sys2Proof.Machine

/-! # The event stream: the encoder and the decoder are inverse (R90 to R99) -/

namespace Sys2Proof

/-! ## The opcode map (R92) -/

/-- Every row of the map compares the whole opcode byte. -/
theorem OpRow.selects_iff {r : OpRow} (h : r ∈ opcodeTable) (b : Byte) :
    r.selects b = true ↔ b = r.value := by
  have hmask : ∀ r ∈ opcodeTable, r.mask = BitVec.allOnes 8 := by decide
  rw [OpRow.selects, hmask r h, BitVec.and_allOnes, decide_eq_true_iff]

/-- The opcode byte of an operation (R92). -/
def Op.byte : Op → Byte
  | .reset => 0x00
  | .start => 0x01
  | .rxbyte => 0x10
  | .idle => 0x20
  | .txdone => 0x21
  | .idle1 => 0x22
  | .idle2 => 0x23
  | .idle3 => 0x24
  | .sendd => 0x30
  | .sendc => 0x31
  | .poll => 0x32

/-- An operation's opcode byte selects it, and no other byte does (R92). -/
theorem lookupOp_eq_some_iff {b : Byte} {op : Op} : lookupOp b = some op ↔ b = op.byte := by
  constructor
  · intro h
    have hbyte : ∀ r ∈ opcodeTable, r.value = r.op.byte := by decide
    obtain ⟨r, hfind, rfl⟩ := Option.map_eq_some_iff.mp h
    have hmem : r ∈ opcodeTable := List.mem_of_find?_eq_some hfind
    have hsel : r.selects b = true := List.find?_some (p := fun r : OpRow => r.selects b) hfind
    exact ((OpRow.selects_iff hmem b).mp hsel).trans (hbyte r hmem)
  · rintro rfl
    cases op <;> rfl

/-- R92: the reserved opcode bytes, counted quarter by quarter to keep each evaluation small. -/
theorem countP_reserved_opcodes :
    ((List.range 256).countP fun n => (lookupOp (BitVec.ofNat 8 n)).isNone) = 245 := by
  change (List.range (64 + 64 + 64 + 64)).countP _ = _
  simp only [List.range_add, List.countP_append, List.countP_map]
  decide

/-- Settles O56: the count by evaluation; the rows compare whole bytes, and their values differ. -/
theorem opcodeMapIsUnambiguous : Obligations.OpcodeMapIsUnambiguous := by
  have hvalues : opcodeTable.Pairwise fun r q => r.value ≠ q.value := by decide
  refine ⟨countP_reserved_opcodes, hvalues.imp_of_mem ?_⟩
  intro r q hr hq hne n _ ⟨hsel, hsel'⟩
  exact hne (((OpRow.selects_iff hr _).mp hsel).symm.trans ((OpRow.selects_iff hq _).mp hsel'))

/-! ## The operand fields (R94 to R96) -/

theorem decodeEnv_encodeEnv (br : Br) : decodeEnv (encodeEnv br) = .ok br := by
  cases br <;> rfl

/-- R94, R95: a byte that decodes to `br` is the one `br` is encoded as, no bit of it ignored. -/
theorem encodeEnv_of_decodeEnv {env : Byte} {br : Br} (h : decodeEnv env = .ok br) :
    encodeEnv br = env := by
  have hall : ∀ env : Byte, ∀ br ∈ [Br.ok, .busy, .error],
      decodeEnv env = .ok br → encodeEnv br = env := by decide
  exact hall env br (by cases br <;> decide) h

theorem extractLsb'_append_byte {w : Nat} (hi : BitVec w) (lo : Byte) :
    (hi ++ lo).extractLsb' 0 8 = lo :=
  (BitVec.extractLsb'_append_eq_of_add_le (by decide)).trans BitVec.extractLsb'_eq_self

theorem extractLsb'_above_append_byte {w : Nat} (hi : BitVec w) (lo : Byte) (k : Nat) :
    (hi ++ lo).extractLsb' (k + 8) 8 = hi.extractLsb' k 8 := by
  rw [BitVec.extractLsb'_append_eq_of_le (Nat.le_add_left 8 k), Nat.add_sub_cancel]

/-- R96: the four bytes of a time, put together again, are the time. -/
theorem leTime_encodeTime (t : Time) :
    leTime (t.extractLsb' 0 8) (t.extractLsb' 8 8) (t.extractLsb' 16 8) (t.extractLsb' 24 8) = t := by
  unfold leTime
  rw [BitVec.extractLsb'_append_extractLsb'_eq_extractLsb' (by rfl),
    BitVec.extractLsb'_append_extractLsb'_eq_extractLsb' (by rfl),
    BitVec.extractLsb'_append_extractLsb'_eq_extractLsb' (by rfl)]
  exact BitVec.extractLsb'_eq_self

/-- R96: the bytes of the time four bytes stand for are those bytes. -/
theorem encodeTime_leTime (b0 b1 b2 b3 : Byte) :
    encodeTime (leTime b0 b1 b2 b3) = [b0, b1, b2, b3] := by
  unfold encodeTime leTime
  rw [extractLsb'_append_byte,
    extractLsb'_above_append_byte _ _ 0, extractLsb'_above_append_byte _ _ 8,
    extractLsb'_above_append_byte _ _ 16, extractLsb'_append_byte,
    extractLsb'_above_append_byte _ _ 0, extractLsb'_above_append_byte _ _ 8,
    extractLsb'_append_byte, extractLsb'_above_append_byte _ _ 0, BitVec.extractLsb'_eq_self]

/-! ## The formats (R91, R97): what each reads as an event, and from which bytes -/

theorem decodeByteEvent_eq_event_iff {make : Byte → Instr} {bytes : List Byte} {i : Instr}
    {rest : List Byte} :
    decodeByteEvent make bytes = .event i rest ↔ ∃ b, i = make b ∧ bytes = b :: rest := by
  constructor
  · intro h
    cases bytes with
    | nil => cases h
    | cons b tail => cases h; exact ⟨b, rfl, rfl⟩
  · rintro ⟨b, rfl, rfl⟩
    rfl

theorem decodeTimedEvent_eq_event_iff {make : Br → Time → Instr} {bytes : List Byte} {i : Instr}
    {rest : List Byte} :
    decodeTimedEvent make bytes = .event i rest ↔
      ∃ br now, i = make br now ∧ bytes = encodeEnv br :: (encodeTime now ++ rest) := by
  constructor
  · intro h
    unfold decodeTimedEvent at h
    split at h
    next env n0 n1 n2 n3 tail =>
      split at h
      next br henv =>
        cases h
        exact ⟨br, _, rfl, by rw [encodeEnv_of_decodeEnv henv, encodeTime_leTime]; rfl⟩
      next => cases h
    next => cases h
  · rintro ⟨br, now, rfl, rfl⟩
    simp [decodeTimedEvent, encodeTime, decodeEnv_encodeEnv, leTime_encodeTime]

theorem decodeSendEvent_eq_event_iff {make : Br → Time → List Byte → Instr} {bytes : List Byte}
    {i : Instr} {rest : List Byte} :
    decodeSendEvent make bytes = .event i rest ↔
      ∃ br now data, data.length ≤ 255 ∧ i = make br now data ∧ bytes =
        encodeEnv br :: (encodeTime now ++ BitVec.ofNat 8 data.length :: (data ++ rest)) := by
  constructor
  · intro h
    unfold decodeSendEvent at h
    split at h
    next env n0 n1 n2 n3 len tail =>
      split at h
      next => cases h
      next hlen =>
        split at h
        next br henv =>
          cases h
          have hdata : (tail.take len.toNat).length = len.toNat :=
            List.length_take_of_le (Nat.le_of_not_lt hlen)
          refine ⟨br, _, _, ?_, rfl, ?_⟩
          · rw [hdata]
            exact Nat.le_of_lt_succ len.isLt
          · rw [encodeEnv_of_decodeEnv henv, encodeTime_leTime, hdata, BitVec.ofNat_toNat,
              BitVec.setWidth_eq, List.take_append_drop]
            rfl
        next => cases h
    next => cases h
  · rintro ⟨br, now, data, hlen, rfl, rfl⟩
    have hmod : data.length % 256 = data.length := Nat.mod_eq_of_lt (Nat.lt_succ_of_le hlen)
    simp [decodeSendEvent, encodeTime, decodeEnv_encodeEnv, leTime_encodeTime, hmod]

/-! ## Events (R91, R98) -/

theorem encodeSend_append (op : Byte) (br : Br) (now : Time) (data rest : List Byte) :
    encodeSend op br now data ++ rest =
      op :: encodeEnv br :: (encodeTime now ++ BitVec.ofNat 8 data.length :: (data ++ rest)) := by
  simp [encodeSend]

/-- R98: the bytes the decoder reads as an event are exactly that event's encoding. -/
theorem decodeEvent_eq_event_iff {bytes : List Byte} {i : Instr} {rest : List Byte} :
    decodeEvent bytes = .event i rest ↔ i.encodable = true ∧ bytes = encode i ++ rest := by
  constructor
  · intro h
    cases bytes with
    | nil => cases h
    | cons b tail =>
      cases hop : lookupOp b with
      | none => simp [decodeEvent, hop] at h
      | some op =>
        obtain rfl := lookupOp_eq_some_iff.mp hop
        cases op with
        | rxbyte =>
          obtain ⟨b, rfl, rfl⟩ := decodeByteEvent_eq_event_iff.mp h
          exact ⟨rfl, rfl⟩
        | poll =>
          obtain ⟨br, now, rfl, rfl⟩ := decodeTimedEvent_eq_event_iff.mp h
          exact ⟨rfl, rfl⟩
        | sendd =>
          obtain ⟨br, now, data, hlen, rfl, rfl⟩ := decodeSendEvent_eq_event_iff.mp h
          exact ⟨decide_eq_true hlen, (encodeSend_append _ br now data rest).symm⟩
        | sendc =>
          obtain ⟨br, now, data, hlen, rfl, rfl⟩ := decodeSendEvent_eq_event_iff.mp h
          exact ⟨decide_eq_true hlen, (encodeSend_append _ br now data rest).symm⟩
        | _ =>
          cases h
          exact ⟨rfl, rfl⟩
  · rintro ⟨henc, rfl⟩
    cases i with
    | rxbyte b => exact decodeByteEvent_eq_event_iff.mpr ⟨b, rfl, rfl⟩
    | poll br now => exact decodeTimedEvent_eq_event_iff.mpr ⟨br, now, rfl, rfl⟩
    | sendd br now data =>
      rw [encode, encodeSend_append]
      exact decodeSendEvent_eq_event_iff.mpr ⟨br, now, data, of_decide_eq_true henc, rfl, rfl⟩
    | sendc br now data =>
      rw [encode, encodeSend_append]
      exact decodeSendEvent_eq_event_iff.mpr ⟨br, now, data, of_decide_eq_true henc, rfl, rfl⟩
    | _ => rfl

/-- R97, R7: a legal event fits the fields of its encoding, whatever the parameters. -/
theorem encodable_of_wellFormed {p : Config.Params} {i : Instr} (h : i.wellFormed p = true) :
    i.encodable = true := by
  cases i with
  | sendd br now data => exact Laws.LegalFitsField.sendd br now data p h
  | sendc br now data => exact Laws.LegalFitsField.sendc br now data p h
  | _ => rfl

/-- Settles O57: the bytes are the event's encoding, and a legal event is encodable. -/
theorem decodeInvertsEncode : Obligations.DecodeInvertsEncode :=
  fun _ _ _ hwf => decodeEvent_eq_event_iff.mpr ⟨encodable_of_wellFormed hwf, rfl⟩

/-- Settles O58: no other bytes are read as the event. -/
theorem encodingsAreUnique : Obligations.EncodingsAreUnique :=
  fun _ _ _ h => (decodeEvent_eq_event_iff.mp h).2

/-- Settles O55: the decoder evaluated on the eight words. -/
theorem sampleWordsDecode : Obligations.SampleWordsDecode := by
  unfold Obligations.SampleWordsDecode
  decide

/-! ## Streams (R90, R98) -/

/-- An encoding is never empty: it has an opcode byte (R91). -/
theorem length_encode_pos (i : Instr) : 1 ≤ (encode i).length := by
  cases i <;> simp [encode, encodeSend]

theorem length_le_length_encodeStream (trace : List Instr) :
    trace.length ≤ (encodeStream trace).length := by
  induction trace with
  | nil => exact Nat.zero_le _
  | cons i trace ih =>
    have hi := length_encode_pos i
    simp only [encodeStream, List.flatMap_cons, List.length_append, List.length_cons] at ih ⊢
    omega

/-- With fuel for each event of the trace, the verdicts are the events. -/
theorem decodeUpTo_encodeStream {trace : List Instr} (h : ∀ i ∈ trace, i.encodable = true)
    {fuel : Nat} (hfuel : trace.length ≤ fuel) :
    decodeUpTo fuel (encodeStream trace) = trace.map .event := by
  induction trace generalizing fuel with
  | nil => cases fuel <;> rfl
  | cons i trace ih =>
    obtain ⟨hi, htrace⟩ := List.forall_mem_cons.mp h
    cases fuel with
    | zero => cases hfuel
    | succ fuel =>
      have hhead : decodeEvent (encodeStream (i :: trace)) = .event i (encodeStream trace) :=
        decodeEvent_eq_event_iff.mpr ⟨hi, rfl⟩
      rw [decodeUpTo, hhead]
      exact congrArg (Verdict.event i :: ·) (ih htrace (Nat.le_of_succ_le_succ hfuel))

/-- Settles O59: the length of the stream is fuel enough. -/
theorem streamDecodesToItsTrace : Obligations.StreamDecodesToItsTrace :=
  fun _ trace hwf => decodeUpTo_encodeStream (fun i hi => encodable_of_wellFormed (hwf i hi))
    (length_le_length_encodeStream trace)

end Sys2Proof

/-! # The output stream determines the log (R100) -/

namespace Sys2Proof.Machine

/-- A record the block can emit has a text that its length byte counts (R7, R100). -/
theorem length_text_le {p : Config.Params} {text : List Byte}
    (h : (Record.msg text).wellFormed p = true) : text.length ≤ 255 := by
  have hlen : text.length + 2 ≤ p.maxLen := of_decide_eq_true h
  have hp := p.maxLen_le
  omega

/-- Two strings under one-byte counts of their lengths: equal bytes, equal strings. -/
theorem counted_append_inj {a b s t : List Byte} (ha : a.length ≤ 255) (hb : b.length ≤ 255)
    (h : BitVec.ofNat 8 a.length :: (a ++ s) = BitVec.ofNat 8 b.length :: (b ++ t)) :
    a = b ∧ s = t := by
  obtain ⟨hcount, htail⟩ := List.cons.inj h
  have hlen : a.length = b.length := by
    have hnat := congrArg BitVec.toNat hcount
    simpa [Nat.mod_eq_of_lt (Nat.lt_succ_of_le ha), Nat.mod_eq_of_lt (Nat.lt_succ_of_le hb)]
      using hnat
  exact List.append_inj htail hlen

theorem resCode_byte_injective : Function.Injective ResCode.byte := by
  intro c d h
  cases c <;> cases d
  case ok.ok | busy.busy => rfl
  all_goals exact absurd h (by decide)

/-- R100: the code byte names the kind of a record and its count or code byte the rest, so no record's
encoding is a beginning of another's. -/
theorem encodeRecord_append_inj {p : Config.Params} {r q : Record} {s t : List Byte}
    (hr : r.wellFormed p = true) (hq : q.wellFormed p = true)
    (h : encodeRecord r ++ s = encodeRecord q ++ t) : r = q ∧ s = t := by
  cases r with
  | msg text =>
    cases q with
    | msg text' =>
      obtain ⟨rfl, hrest⟩ :=
        counted_append_inj (length_text_le hr) (length_text_le hq) (List.cons.inj h).2
      exact ⟨rfl, hrest⟩
    | _ => simp [encodeRecord] at h
  | txstart data =>
    cases q with
    | txstart data' =>
      obtain ⟨rfl, hrest⟩ := counted_append_inj (Laws.lenLegal_le p data hr)
        (Laws.lenLegal_le p data' hq) (List.cons.inj h).2
      exact ⟨rfl, hrest⟩
    | _ => simp [encodeRecord] at h
  | res code =>
    cases q with
    | res code' =>
      obtain ⟨hcode, hrest⟩ := List.cons.inj (List.cons.inj h).2
      exact ⟨congrArg Record.res (resCode_byte_injective hcode), hrest⟩
    | _ => simp [encodeRecord] at h
  | reject =>
    cases q with
    | reject => exact ⟨rfl, (List.cons.inj h).2⟩
    | _ => simp [encodeRecord] at h

theorem encodeRecord_ne_nil (r : Record) : encodeRecord r ≠ [] := by
  cases r <;> nofun

/-- Settles O60, by induction on the logs: the encodings' first records agree, and so do the rests. -/
theorem outputStreamDeterminesLog : Obligations.OutputStreamDeterminesLog := by
  intro p l
  induction l with
  | nil =>
    intro m _ _ h
    cases m with
    | nil => rfl
    | cons q m => exact absurd (List.append_eq_nil_iff.mp h.symm).1 (encodeRecord_ne_nil q)
  | cons r l ih =>
    intro m hl hm h
    cases m with
    | nil => exact absurd (List.append_eq_nil_iff.mp h).1 (encodeRecord_ne_nil r)
    | cons q m =>
      obtain ⟨hr, hl'⟩ := List.forall_mem_cons.mp hl
      obtain ⟨hq, hm'⟩ := List.forall_mem_cons.mp hm
      obtain ⟨rfl, hrest⟩ := encodeRecord_append_inj hr hq h
      rw [ih m hl' hm' hrest]

end Sys2Proof.Machine

/-! # The step and the events it rejects (R90, R98, R99) -/

namespace Sys2Proof.Machine

/-- Settles O52, by the `event` case of `step`. -/
theorem stepRunsDecodedEvent : Obligations.StepRunsDecodedEvent := by
  intro s i rest h
  rw [step, State.nextEvent, h]
  rfl

/-- Settles O53, by the `invalid` case of `step`. -/
theorem stepRejectsInvalidBytes : Obligations.StepRejectsInvalidBytes := by
  intro s why rest h
  rw [step, State.nextEvent, h]
  rfl

theorem accept_of_eq_false {s : State} {enabled : Bool} (h : enabled = false) (t : State) :
    s.accept enabled t = .next s.reject := by
  rw [h, accept_false]

/-- R99, R104: an event that is not enabled emits `REJECT` and changes nothing else. -/
theorem exec_of_not_enabled {i : Instr} {s : State} (h : enabled s i = false) :
    exec i s = .next s.reject := by
  cases i with
  | reset => cases h
  | rxbyte b => cases h
  | sendd br now data => exact accept_of_eq_false ((Bool.and_comm _ _).trans h) _
  | sendc br now data => exact accept_of_eq_false ((Bool.and_comm _ _).trans h) _
  | _ => exact accept_of_eq_false ((Bool.and_true _).symm.trans h) _

/-- R99 case (e): an event without a step in the present state is rejected. -/
theorem exec_of_not_hasStep {i : Instr} {s : State} (h : ¬ hasStep s i = true) :
    exec i s = .next s.reject := by
  apply exec_of_not_enabled
  rw [enabled, Bool.eq_false_of_not_eq_true h, Bool.false_and]

/-- R99 case (c): an event that is not well-formed is rejected in every state. -/
theorem exec_of_not_wellFormed {i : Instr} {s : State} (h : ¬ i.wellFormed s.params = true) :
    exec i s = .next s.reject := by
  apply exec_of_not_enabled
  rw [enabled, Bool.eq_false_of_not_eq_true h, Bool.and_false]

/-- R72: inside a drain only `RESET`, the producer and the drain's own micro-steps can have a step. -/
theorem not_hasStep_of_drain {s : State} (hd : s.drain ≠ none) {i : Instr} (hreset : i ≠ .reset)
    (hagent : i.agent ≠ .P) (hidle2 : i ≠ .idle2) (hidle3 : i ≠ .idle3) :
    ¬ hasStep s i = true := by
  have hrun : s.idleRun = true := Option.isSome_iff_ne_none.mpr hd
  cases i with
  | reset => exact absurd rfl hreset
  | rxbyte b => exact absurd rfl hagent
  | idle2 => exact absurd rfl hidle2
  | idle3 => exact absurd rfl hidle3
  | _ => simp [hasStep, hrun]

theorem canFinish_iff (s : State) :
    s.canFinish = true ↔ ∃ d, s.drain = some d ∧ d.pos = d.wp := by
  cases hd : s.drain <;> simp [State.canFinish, State.idleRun, State.drained, hd]

/-- R97: data of no byte or of more than TX_MAX is not legal. -/
theorem not_lenLegal {p : Config.Params} {data : List Byte}
    (h : data.length = 0 ∨ p.txMax < data.length) : ¬ Instr.lenLegal p data = true := by
  simp only [Instr.lenLegal, Bool.and_eq_true, decide_eq_true_iff]
  omega

/-- Settles O38: in each clause the event has no step, or is not well-formed. -/
theorem disabledEventsAreRejected : Obligations.DisabledEventsAreRejected := by
  intro s
  refine ⟨?inDrain, ?noDrain, ?drained, ?notDrained, ?armed, ?length⟩
  case inDrain =>
    intro i hd hreset hagent hidle2 hidle3
    exact exec_of_not_hasStep (not_hasStep_of_drain hd hreset hagent hidle2 hidle3)
  case noDrain =>
    intro hd
    have hdeliver : ¬ s.canDeliver = true := by simp [canDeliver_iff, hd]
    have hfinish : ¬ s.canFinish = true := by simp [canFinish_iff, hd]
    exact ⟨exec_of_not_hasStep hdeliver, exec_of_not_hasStep hfinish⟩
  case drained =>
    intro d hd hpos
    have hdeliver : ¬ s.canDeliver = true := by simp [canDeliver_iff, hd, hpos]
    exact exec_of_not_hasStep hdeliver
  case notDrained =>
    intro d hd hpos
    have hfinish : ¬ s.canFinish = true := by simp [canFinish_iff, hd, hpos]
    exact exec_of_not_hasStep hfinish
  case armed =>
    intro harmed
    have hstart : ¬ hasStep s .start = true := by simp [hasStep, harmed]
    exact exec_of_not_hasStep hstart
  case length =>
    intro br now data hlen
    exact ⟨exec_of_not_wellFormed (not_lenLegal hlen), exec_of_not_wellFormed (not_lenLegal hlen)⟩

end Sys2Proof.Machine

/-! # The ring buffer: arming, stores, and what a burst delivers (R122, R123, R125, R142) -/

namespace Sys2Proof.Machine

/-! ## `START` (R122) -/

/-- Settles O4: with its step `START` is its body, without it the rejection of R99 case (e). -/
theorem startArmsReceiver : Obligations.StartArmsReceiver := by
  intro s
  constructor
  · intro harmed hd
    have hstep : (!s.armed && !s.idleRun) = true := by simp [State.idleRun, harmed, hd]
    change s.accept (!s.armed && !s.idleRun) s.armReceiver = _
    rw [hstep]
    rfl
  · intro hbusy
    have hstart : ¬ hasStep s .start = true := by
      rcases hbusy with harmed | hd
      · simp [hasStep, harmed]
      · simp [hasStep, State.idleRun, Option.isSome_iff_ne_none.mpr hd]
    exact exec_of_not_hasStep hstart

/-! ## `RXBYTE` (R123) -/

theorem receive_of_armed {s : State} (h : s.armed = true) (b : Byte) :
    s.receive b = s.storeByte b := if_pos h

theorem receive_of_not_armed {s : State} (h : s.armed = false) (b : Byte) : s.receive b = s := by
  simp [State.receive, h]

/-- Settles O5, by the two cases of `State.receive`. -/
theorem rxbyteStoresReceivedByte : Obligations.RxbyteStoresReceivedByte := by
  intro b s
  constructor
  · intro harmed
    refine ⟨_, exec_rxbyte b s, ?_⟩
    rw [receive_of_armed harmed, storeByte_eq]
    rfl
  · intro hunarmed
    rw [exec_rxbyte, receive_of_not_armed hunarmed]

/-- R13, R66: what every element of every array reads as after a stored byte. -/
theorem elem_storeByte (s : State) (b : Byte) (a : Config.ArrayName) (i : Nat) :
    (s.storeByte b).elem a i = if a = .ring ∧ i = s.writePos then b else s.elem a i := by
  have hepoch : (s.storeByte b).epoch = s.epoch := by rw [storeByte_eq]
  by_cases ha : a = .ring
  · subst ha
    have hring : (s.storeByte b).array .ring = (s.array .ring).write s.writePos b := by
      rw [storeByte_eq]; rfl
    simp [elem_of_write hring hepoch]
  · have hother : (s.storeByte b).array a = s.array a := by
      rw [storeByte_eq]
      cases a with
      | ring => exact absurd rfl ha
      | _ => rfl
    simp [elem_congr hother hepoch, ha]

/-- Settles O6, by the two cases of `elem_storeByte`. -/
theorem rxbyteWritesOneElement : Obligations.RxbyteWritesOneElement := by
  intro b s harmed
  refine ⟨_, exec_rxbyte b s, ?_⟩
  rw [receive_of_armed harmed]
  constructor
  · exact (elem_storeByte s b .ring _).trans (if_pos ⟨rfl, rfl⟩)
  · intro a i hne
    exact (elem_storeByte s b a i).trans (if_neg hne)

/-! ## A burst (R125): after it the ring holds the newest CAPACITY bytes -/

/-- R61: the indices of two stored bytes less than a revolution apart differ. -/
theorem add_mod_ne_add_mod {c w k n : Nat} (hlt : k < n) (hnear : n < k + c) :
    (w + k) % c ≠ (w + n) % c := by
  intro heq
  have hdvd : c ∣ w + n - (w + k) := (Nat.modEq_iff_dvd' (by omega)).mp heq
  have := Nat.le_of_dvd (by omega) hdvd
  omega

/-- In `r` the armed receiver has taken the bytes `bs` one after the other since `s`: the write position
is their number of indices further on, and each of the newest CAPACITY bytes stands where it was
stored. -/
structure AfterBurst (s : State) (bs : List Byte) (r : State) : Prop where
  armed : r.armed = true
  params : r.params = s.params
  consumed : r.consumed = s.consumed
  drain : r.drain = s.drain
  remaining_pos : 1 ≤ r.remaining
  remaining_le : r.remaining ≤ r.params.capacity
  writePos_eq : r.writePos = (s.writePos + bs.length) % s.params.capacity
  newest : ∀ k < bs.length, bs.length ≤ k + s.params.capacity →
    bs[k]? = some (r.elem .ring ((s.writePos + k) % s.params.capacity))

namespace AfterBurst

variable {s r : State} {bs : List Byte}

theorem nil (harmed : s.armed = true) (hpos : 1 ≤ s.remaining)
    (hle : s.remaining ≤ s.params.capacity) : AfterBurst s [] s where
  armed := harmed
  params := rfl
  consumed := rfl
  drain := rfl
  remaining_pos := hpos
  remaining_le := hle
  writePos_eq := (Nat.mod_eq_of_lt (writePos_lt s)).symm
  newest := nofun

/-- R123: the next byte replaces at most one that is CAPACITY bytes older. -/
theorem receive (h : AfterBurst s bs r) (b : Byte) : AfterBurst s (bs ++ [b]) (r.receive b) := by
  have hprod := receive_onlyProducer r b
  rw [receive_of_armed h.armed] at hprod ⊢
  obtain ⟨hpos, hle⟩ := countDown_range r h.remaining_pos h.remaining_le
  have hwp := writePos_storeByte h.remaining_pos h.remaining_le b
  rw [State.nextIndex, h.writePos_eq, h.params, Nat.mod_add_mod] at hwp
  exact {
    armed := hprod.armed.trans h.armed
    params := hprod.params.trans h.params
    consumed := hprod.consumed.trans h.consumed
    drain := hprod.drain.trans h.drain
    remaining_pos := by rw [storeByte_eq]; exact hpos
    remaining_le := by rw [storeByte_eq]; exact hle
    writePos_eq := by rw [hwp, List.length_append, List.length_singleton, Nat.add_assoc]
    newest := by
      intro k hk hnew
      rw [List.length_append, List.length_singleton] at hk hnew
      rw [elem_storeByte, h.writePos_eq]
      by_cases hlast : k = bs.length
      · subst hlast
        simp
      · have hne : (s.writePos + k) % s.params.capacity ≠
            (s.writePos + bs.length) % s.params.capacity :=
          add_mod_ne_add_mod (by omega) (by omega)
        rw [List.getElem?_append_left (by omega), if_neg fun hsame => hne hsame.2]
        exact h.newest k (by omega) (by omega) }

end AfterBurst

theorem afterBurst_foldl {s : State} (harmed : s.armed = true) (hpos : 1 ≤ s.remaining)
    (hle : s.remaining ≤ s.params.capacity) (bs : List Byte) :
    AfterBurst s bs (bs.foldl (fun u b => u.receive b) s) := by
  induction bs using List.reverseRecOn with
  | nil => exact .nil harmed hpos hle
  | append_singleton bs b ih =>
    rw [List.foldl_append]
    exact ih.receive b

theorem runEvents_rx_append (bs : List Byte) (trace : List Instr) (s : State) :
    runEvents (Instr.rx bs ++ trace) s = runEvents trace (bs.foldl (fun u b => u.receive b) s) := by
  induction bs generalizing s with
  | nil => rfl
  | cons b bs ih => exact (runEvents_cons (exec_rxbyte b s) _).trans (ih _)

/-! ## The position of a drain is not read by the decoder (R147) -/

theorem correlate_setPos (p : Nat) (s : State) (text : List Byte) :
    (s.setPos p).correlate text = (s.correlate text).setPos p := by
  unfold State.correlate
  rw [show (s.setPos p).isEcho text = s.isEcho text from rfl]
  split <;> rfl

theorem applyScanPolicy_setPos (p : Nat) (s : State) :
    (s.setPos p).applyScanPolicy = s.applyScanPolicy.setPos p := by
  unfold State.applyScanPolicy
  rw [show (s.setPos p).params = s.params from rfl]
  split
  · cases hd : s.drain <;> simp [State.setFlag, State.setPos, hd]
  · rfl

theorem complete_setPos (p : Nat) (s : State) : (s.setPos p).complete = s.complete.setPos p := by
  have hcut : (s.setPos p).cutMessage = s.cutMessage.setPos p := rfl
  have htext : (s.cutMessage.setPos p).messageText = s.cutMessage.messageText := rfl
  have hready (t : State) : (t.setPos p).setFlag .ready false = (t.setFlag .ready false).setPos p := rfl
  unfold State.complete
  rw [hcut, htext, correlate_setPos, hready, applyScanPolicy_setPos]
  rfl

theorem ingest_setPos (p : Nat) (s : State) (b : Byte) :
    (s.setPos p).ingest b = (s.ingest b).setPos p := by
  have happ : (s.setPos p).appendByte b = (s.appendByte b).setPos p := rfl
  unfold State.ingest
  rw [happ, complete_setPos, show (s.setPos p).assemblerFull = s.assemblerFull from rfl,
    show ((s.appendByte b).setPos p).terminated = (s.appendByte b).terminated from rfl]
  split
  · rfl
  · split <;> rfl

theorem deliver_setPos (p : Nat) (s : State) (b : Byte) :
    (s.setPos p).deliver b = (s.deliver b).setPos p := by
  have hstop : (s.setPos p).stopped = s.stopped := by
    cases hd : s.drain <;> simp [State.stopped, hd]
  unfold State.deliver
  rw [ingest_setPos, hstop]
  split <;> rfl

theorem setPos_pos {s : State} {d : Drain} (hd : s.drain = some d) : s.setPos d.pos = s := by
  unfold State.setPos
  rw [hd, Option.map_some, ← hd]

theorem setPos_setPos (p q : Nat) (s : State) : (s.setPos p).setPos q = s.setPos q := by
  cases hd : s.drain <;> simp [State.setPos, hd]

/-! ## A drain delivers the bytes of its span, one after the other (R142, R145) -/

/-- The bytes `bs` given to the line decoder in order, each as R147 says. -/
def State.deliverAll (bs : List Byte) (s : State) : State := bs.foldl (fun u b => u.deliver b) s

theorem deliverAll_onlyInterrupt (bs : List Byte) (s : State) :
    OnlyInterruptState s (s.deliverAll bs) := by
  induction bs generalizing s with
  | nil => exact .refl s
  | cons b bs ih => exact (deliver_onlyInterrupt s b).trans (ih _)

theorem deliverAll_setPos (bs : List Byte) (p : Nat) (s : State) :
    (s.setPos p).deliverAll bs = (s.deliverAll bs).setPos p := by
  induction bs generalizing s with
  | nil => rfl
  | cons b bs ih =>
    change ((s.setPos p).deliver b).deliverAll bs = _
    rw [deliver_setPos, ih]
    rfl

/-- R146, R147: deliveries may stop the scan; they leave the samples of micro-step 1 and `pos`. -/
theorem deliverAll_drain (bs : List Byte) {s : State} {d : Drain} (h : s.drain = some d) :
    ∃ stop, (s.deliverAll bs).drain = some { d with stop := stop } := by
  induction bs generalizing s d with
  | nil => exact ⟨d.stop, h⟩
  | cons b bs ih =>
    rcases deliver_drain b s with hb | hb
    · exact ih (hb.trans h)
    · obtain ⟨stop, hrest⟩ := ih (d := { d with stop := true }) (by rw [hb, h]; rfl)
      exact ⟨stop, hrest⟩

/-- The bytes of `n` ring indices from `i` on, in ring order. -/
def State.ringBytes (s : State) (i n : Nat) : List Byte :=
  (List.range n).map fun t => s.elem .ring ((i + t) % s.params.capacity)

/-- R61: the bytes from `i` on are the byte at `i` and those from its successor on. -/
theorem ringBytes_succ (s : State) (i n : Nat) :
    s.ringBytes i (n + 1) = s.ringAt i :: s.ringBytes (s.nextIndex i) n := by
  have hshift (t : Nat) : (i + Nat.succ t) % s.params.capacity =
      (s.nextIndex i + t) % s.params.capacity := by
    rw [State.nextIndex, Nat.mod_add_mod, Nat.succ_eq_one_add, Nat.add_assoc]
  rw [State.ringBytes, List.range_succ_eq_map, List.map_cons, List.map_map]
  exact congrArg₂ List.cons rfl (List.map_congr_left fun t _ => congrArg (s.elem .ring) (hshift t))

theorem ringBytes_congr {s u : State} (h : OnlyInterruptState s u) (i n : Nat) :
    u.ringBytes i n = s.ringBytes i n := by
  have hring : u.array .ring = s.array .ring := h.ring
  simp [State.ringBytes, elem_congr hring h.epoch, h.params]

@[simp] theorem length_ringBytes (s : State) (i n : Nat) : (s.ringBytes i n).length = n := by
  simp [State.ringBytes]

theorem getElem?_ringBytes (s : State) (i : Nat) {n t : Nat} (h : t < n) :
    (s.ringBytes i n)[t]? = some (s.elem .ring ((i + t) % s.params.capacity)) := by
  simp [State.ringBytes, h]

/-- R145, R147: the loop of `IDLE` delivers the bytes from `pos` up to the sampled write position. -/
theorem drainLoop_eq_deliverAll {s : State} {d : Drain} (hd : s.drain = some d)
    (hpos : d.pos < s.params.capacity) (hwp : d.wp < s.params.capacity) {fuel : Nat}
    (hfuel : s.ringDistance d.pos d.wp ≤ fuel) :
    State.drainLoop fuel s =
      (s.deliverAll (s.ringBytes d.pos (s.ringDistance d.pos d.wp))).setPos d.wp := by
  induction fuel generalizing s d with
  | zero =>
    have hzero := Nat.le_zero.mp hfuel
    rw [hzero, ← (ringDistance_eq_zero s hpos hwp).mp hzero]
    exact (setPos_pos hd).symm
  | succ k ih =>
    unfold State.drainLoop
    by_cases heq : d.pos = d.wp
    · have hdrained : s.drained = true := by simp [State.drained, hd, heq]
      rw [if_pos hdrained, (ringDistance_eq_zero s hpos hwp).mpr heq, ← heq]
      exact (setPos_pos hd).symm
    · have hdrained : ¬ s.drained = true := by simp [State.drained, hd, heq]
      obtain ⟨stop, -, hnext⟩ := deliverNext_drain hd
      have hframe := deliverNext_onlyInterrupt s
      have hcloser := ringDistance_nextIndex s hpos hwp heq
      have hdist (i j : Nat) : s.deliverNext.ringDistance i j = s.ringDistance i j := by
        rw [State.ringDistance, hframe.params]; rfl
      have hfuel' : s.ringDistance (s.nextIndex d.pos) d.wp ≤ k := by omega
      have hrest := ih hnext (by rw [hframe.params]; exact nextIndex_lt s d.pos)
        (by rw [hframe.params]; exact hwp) (by rw [hdist]; exact hfuel')
      rw [if_neg hdrained, hrest, hdist, ringBytes_congr hframe, ← hcloser, ringBytes_succ,
        deliverNext_eq hd, deliverAll_setPos, setPos_setPos]
      rfl

/-- R142, R145: `IDLE` gives the unread bytes to the line decoder, oldest first, and then moves
`consumed` to the sampled write position. -/
theorem drainSpan_eq_deliverAll {s : State} (hc : s.consumed < s.params.capacity) :
    s.drainSpan = { s.beginDrain.deliverAll (s.ringBytes s.consumed s.unreadLen) with
      consumed := s.writePos, cTotal := s.wTotal, drain := none } := by
  have hloop : State.drainLoop s.params.capacity s.beginDrain =
      (s.beginDrain.deliverAll (s.ringBytes s.consumed s.unreadLen)).setPos s.writePos :=
    drainLoop_eq_deliverAll (beginDrain_drain s) hc (writePos_lt s)
      (Nat.le_of_lt (ringDistance_lt s _ _))
  obtain ⟨stop, hdrain⟩ := deliverAll_drain (s.ringBytes s.consumed s.unreadLen) (beginDrain_drain s)
  rw [State.drainSpan, hloop, endDrain_eq (by rw [setPos_drain, hdrain]; rfl)]
  rfl

/-! ## The bytes `IDLE` delivers after a burst (R125) -/

/-- R126: `n` indices further on, the distance is `n` without its whole revolutions. -/
theorem ringDistance_add_mod (s : State) {i : Nat} (hi : i < s.params.capacity) (n : Nat) :
    s.ringDistance i ((i + n) % s.params.capacity) = n % s.params.capacity := by
  have hback : i + n + (s.params.capacity - i) = n + s.params.capacity := by omega
  rw [State.ringDistance, Nat.add_sub_assoc (Nat.le_of_lt hi), Nat.mod_add_mod, hback,
    Nat.add_mod_right]

namespace AfterBurst

variable {s r : State} {bs : List Byte}

/-- R126: with nothing unread before the burst, its length without the whole revolutions is unread. -/
theorem unreadLen_eq (h : AfterBurst s bs r) (hc : s.consumed = s.writePos) :
    r.unreadLen = bs.length % s.params.capacity := by
  have hlt : s.writePos < r.params.capacity := h.params ▸ writePos_lt s
  rw [State.unreadLen, h.consumed, hc, h.writePos_eq, ← h.params, ringDistance_add_mod r hlt]

/-- R125: the unread bytes are the newest of the burst, in arrival order: the others fill whole
revolutions, so the first of the newest stands where the burst began. -/
theorem ringBytes_eq_drop (h : AfterBurst s bs r) (hc : s.consumed = s.writePos) :
    r.ringBytes r.consumed r.unreadLen =
      bs.drop (bs.length - bs.length % s.params.capacity) := by
  rw [h.unreadLen_eq hc, h.consumed, hc]
  have hlt : bs.length % s.params.capacity < s.params.capacity := Nat.mod_lt _ s.params.capacity_pos
  have hle : bs.length % s.params.capacity ≤ bs.length := Nat.mod_le _ _
  have hturns : s.params.capacity ∣ bs.length - bs.length % s.params.capacity :=
    Nat.dvd_sub_mod bs.length
  apply List.ext_getElem?
  intro t
  rw [List.getElem?_drop]
  by_cases ht : t < bs.length % s.params.capacity
  · have hsame : (s.writePos + (bs.length - bs.length % s.params.capacity + t)) % s.params.capacity =
        (s.writePos + t) % s.params.capacity := by
      obtain ⟨turns, hturns⟩ := hturns
      rw [hturns, Nat.add_left_comm, Nat.mul_add_mod]
    rw [getElem?_ringBytes r _ ht, h.newest _ (by omega) (by omega), h.params, hsame]
  · rw [List.getElem?_eq_none (by simpa using ht), List.getElem?_eq_none (by omega)]

end AfterBurst

/-- Settles O8: the burst leaves its newest bytes in the ring from `consumed` on, and `IDLE` delivers
what lies there. -/
theorem burstDeliversNewestBytes : Obligations.BurstDeliversNewestBytes := by
  intro bs s harmed hidle hpos hle hc
  have h := afterBurst_foldl harmed hpos hle bs
  have hlt := h.consumed.trans_lt (hc.trans_lt (h.params ▸ writePos_lt s))
  refine ⟨bs.foldl (fun u b => u.receive b) s, ?_, ?_⟩
  · rw [← List.append_nil (Instr.rx bs), runEvents_rx_append]
    rfl
  · rw [Instr.rxi, runEvents_rx_append, runEvents_cons (exec_idle (h.drain.trans hidle)),
      drainSpan_eq_deliverAll hlt, h.ringBytes_eq_drop hc]
    rfl

end Sys2Proof.Machine

/-! # The frame boundary: the span, the micro-steps of `IDLE`, and what they store to (R141 to R152) -/

namespace Sys2Proof.Machine

/-! ## The span and its sub-spans (R142, R143) -/

/-- R61: while no index passes the end of the ring, the `mod` does nothing. -/
theorem map_add_mod_range {i n c : Nat} (h : i + n ≤ c) :
    (List.range n).map (fun t => (i + t) % c) = List.range' i n := by
  rw [List.range'_eq_map_range]
  apply List.map_congr_left
  intro t ht
  have hlt := List.mem_range.mp ht
  exact Nat.mod_eq_of_lt (by omega)

theorem subSpans_of_le {s : State} {wp : Nat} (h : s.consumed ≤ wp) :
    s.firstSubSpan wp = List.range' s.consumed (wp - s.consumed) ∧ s.secondSubSpan wp = [] := by
  have hwrap : s.wrap wp = false := decide_eq_false (Nat.not_lt.mpr h)
  simp [State.firstSubSpan, State.secondSubSpan, hwrap]

theorem subSpans_of_lt {s : State} {wp : Nat} (h : wp < s.consumed) :
    s.firstSubSpan wp = List.range' s.consumed (s.params.capacity - s.consumed) ∧
      s.secondSubSpan wp = List.range wp := by
  have hwrap : s.wrap wp = true := decide_eq_true h
  simp [State.firstSubSpan, State.secondSubSpan, hwrap]

theorem length_span (s : State) (wp : Nat) : (s.span wp).length = s.ringDistance s.consumed wp := by
  simp [State.span]

/-- R143: a span that does not wrap is its first sub-span. -/
theorem span_of_le {s : State} {wp : Nat} (hle : s.consumed ≤ wp) (hwp : wp < s.params.capacity) :
    s.span wp = List.range' s.consumed (wp - s.consumed) := by
  rw [State.span, ringDistance_eq s (by omega) hwp, if_pos hle]
  exact map_add_mod_range (by omega)

/-- R143: a span that wraps goes to the end of the ring, and on from index 0. -/
theorem span_of_lt {s : State} {wp : Nat} (hlt : wp < s.consumed)
    (hc : s.consumed < s.params.capacity) :
    s.span wp = List.range' s.consumed (s.params.capacity - s.consumed) ++ List.range wp := by
  have hn : s.ringDistance s.consumed wp = s.params.capacity - s.consumed + wp := by
    rw [ringDistance_eq s hc (by omega), if_neg (by omega)]
    omega
  have htail (t : Nat) (ht : t ∈ List.range wp) :
      (s.consumed + (s.params.capacity - s.consumed + t)) % s.params.capacity = t := by
    have hwp := List.mem_range.mp ht
    rw [← Nat.add_assoc, Nat.add_sub_cancel' (Nat.le_of_lt hc), Nat.add_mod_left]
    exact Nat.mod_eq_of_lt (by omega)
  rw [State.span, hn, List.range_add, List.map_append, map_add_mod_range (by omega), List.map_map]
  exact congrArg _ ((List.map_congr_left htail).trans (List.map_id _))

/-- Settles O9, case by case: equal, before and after the wrap boundary. -/
theorem subSpansMakeTheSpan : Obligations.SubSpansMakeTheSpan := by
  intro s wp hc hwp
  rcases Nat.lt_or_ge wp s.consumed with hlt | hle
  · obtain ⟨hfirst, hsecond⟩ := subSpans_of_lt hlt
    have hspan := span_of_lt hlt hc
    refine ⟨fun heq => by omega, fun hgt => by omega, fun _ => ⟨hfirst, ?_, ?_⟩, ?_⟩
    · rw [hsecond, List.range_eq_range']
    · simp [hspan]
    · rw [hspan, hfirst, hsecond]
  · obtain ⟨hfirst, hsecond⟩ := subSpans_of_le hle
    have hspan := span_of_le hle hwp
    refine ⟨fun heq => ⟨?_, hsecond, ?_⟩, fun _ => ⟨hfirst, hsecond, ?_⟩,
      fun hlt => by omega, ?_⟩
    · rw [hfirst, heq, Nat.sub_self, List.range'_zero]
    · rw [length_span, heq, ringDistance_self s hc]
    · simp [hspan]
    · rw [hspan, hfirst, hsecond, List.append_nil]

/-! ## `IDLE` as a whole (R141, R142, R145, R150) -/

/-- Settles O17: the bytes of the unread region are those of the span, index by index. -/
theorem idleDeliversSpanInOrder : Obligations.IdleDeliversSpanInOrder := by
  intro s hidle hc
  rw [exec_idle hidle, drainSpan_eq_deliverAll hc, State.span, List.foldl_map, State.ringBytes,
    State.deliverAll, List.foldl_map]
  rfl

/-- Settles O18: the unread region is empty, so what `IDLE` delivers is nothing. -/
theorem idleEmptySpanDeliversNothing : Obligations.IdleEmptySpanDeliversNothing := by
  intro s hidle hempty
  have hc : s.consumed < s.params.capacity := hempty ▸ writePos_lt s
  have hnone : s.unreadLen = 0 := by rw [State.unreadLen, hempty, ringDistance_self s hc]
  rw [exec_idle hidle, drainSpan_eq_deliverAll hc, hnone, hempty, ← hidle]
  rfl

/-- R24, R45, R141: with `rx_seen = 0` and no drain running, nothing is unread. -/
theorem Inv.writePos_eq_consumed {s : State} (h : Inv s) (hidle : s.drain = none)
    (hseen : s.rxSeen = false) : s.writePos = s.consumed := by
  rw [h.writePos_eq, h.consumed_eq, h.quiet hseen hidle]

/-- Settles O20: a spurious `IDLE` has an empty span, and what it writes stands there already. -/
theorem spuriousIdleChangesNothing : Obligations.SpuriousIdleChangesNothing := by
  intro s h hidle hseen
  have hsame : ({ s with rxSeen := false, cTotal := s.wTotal } : State) = s :=
    congrArg₂ (fun seen total => ({ s with rxSeen := seen, cTotal := total } : State)) hseen.symm
      (h.quiet hseen hidle)
  rw [idleEmptySpanDeliversNothing s hidle (h.writePos_eq_consumed hidle hseen), hsame]

/-! ## `IDLE` is its micro-steps (R145) -/

theorem drained_iff {s : State} {d : Drain} (hd : s.drain = some d) :
    s.drained = true ↔ d.pos = d.wp := by
  simp [State.drained, hd]

theorem drainLoop_of_drained {s : State} (h : s.drained = true) (fuel : Nat) :
    State.drainLoop fuel s = s := by
  cases fuel with
  | zero => rfl
  | succ k => exact if_pos h

theorem drainLoop_of_not_drained {s : State} (h : ¬ s.drained = true) (fuel : Nat) :
    State.drainLoop (fuel + 1) s = State.drainLoop fuel s.deliverNext := if_neg h

/-- R145, R151: micro-step 2 once for each byte still to deliver, then micro-step 3, are the loop of
`IDLE` given enough fuel and its last line. -/
theorem runEvents_idle2_idle3 {s : State} {d : Drain} (hd : s.drain = some d)
    (hpos : d.pos < s.params.capacity) (hwp : d.wp < s.params.capacity) {n fuel : Nat}
    (hn : s.ringDistance d.pos d.wp = n) (hfuel : n ≤ fuel) :
    runEvents (List.replicate n .idle2 ++ [.idle3]) s =
      .next (State.drainLoop fuel s).endDrain := by
  induction n generalizing s d fuel with
  | zero =>
    have heq := (ringDistance_eq_zero s hpos hwp).mp hn
    rw [drainLoop_of_drained ((drained_iff hd).mpr heq)]
    exact runEvents_cons (exec_idle3 hd heq) []
  | succ n ih =>
    obtain ⟨fuel, rfl⟩ : ∃ k, fuel = k + 1 := ⟨fuel - 1, by omega⟩
    have hne : d.pos ≠ d.wp := fun heq => by
      have hzero := (ringDistance_eq_zero s hpos hwp).mpr heq
      omega
    have hopen := mt (drained_iff hd).mp hne
    obtain ⟨stop, -, hnext⟩ := deliverNext_drain hd
    have hcloser := ringDistance_nextIndex s hpos hwp hne
    have hn' : s.deliverNext.ringDistance (s.nextIndex d.pos) d.wp = n := by
      rw [State.ringDistance, deliverNext_params, ← State.ringDistance]
      omega
    rw [drainLoop_of_not_drained hopen, List.replicate_succ, List.cons_append,
      runEvents_cons (exec_idle2 (canDeliver_of_not_drained hopen))]
    exact ih hnext (by rw [deliverNext_params]; exact nextIndex_lt s d.pos)
      (by rw [deliverNext_params]; exact hwp) hn' (by omega)

/-- Settles O19: after micro-step 1 the rest of the trace is the loop of `IDLE` with fuel CAPACITY. -/
theorem drainMicroStepsEqualIdle : Obligations.DrainMicroStepsEqualIdle := by
  intro s hidle hc
  rw [Instr.drain, runEvents_cons (exec_idle1 hidle), exec_idle hidle]
  exact runEvents_idle2_idle3 (beginDrain_drain s) hc (writePos_lt s) rfl
    (Nat.le_of_lt (ringDistance_lt s _ _))

/-! ## The micro-steps one by one (R146, R147, R149) -/

/-- Settles O10: `beginDrain` written out. -/
theorem idle1SamplesWritePosition : Obligations.Idle1SamplesWritePosition :=
  fun _ hidle => exec_idle1 hidle

/-- Settles O16: `endDrain` of a drain that has reached its sample. -/
theorem idle3AdvancesConsumed : Obligations.Idle3AdvancesConsumed := by
  intro s d hd hdone
  rw [exec_idle3 hd hdone, endDrain_eq hd]

theorem setPos_of_drain {s : State} {d : Drain} (hd : s.drain = some d) (p : Nat) :
    s.setPos p = { s with drain := some { d with pos := p } } := by
  rw [State.setPos, hd]
  rfl

theorem deliver_of_stop {s : State} {d : Drain} (hd : s.drain = some d) (hstop : d.stop = true)
    (b : Byte) : s.deliver b = s := by
  simp [State.deliver, State.stopped, hd, hstop]

theorem deliver_of_not_stop {s : State} {d : Drain} (hd : s.drain = some d) (hstop : d.stop = false)
    (b : Byte) : s.deliver b = s.ingest b := by
  simp [State.deliver, State.stopped, hd, hstop]

/-- R147: with a step, `IDLE2` gives the byte at `pos` to the line decoder or passes it over, and moves
`pos` on. -/
theorem exec_idle2_of_drain {s : State} {d : Drain} (hd : s.drain = some d) (hne : d.pos ≠ d.wp) :
    exec .idle2 s = .next ((s.deliver (s.ringAt d.pos)).setPos (s.nextIndex d.pos)) := by
  rw [exec_idle2 ((canDeliver_iff s).mpr ⟨d, hd, hne⟩), deliverNext_eq hd]

theorem ringAt_of_lt {s : State} {i : Nat} (h : i < s.params.capacity) :
    s.ringAt i = s.elem .ring i := by
  rw [State.ringAt, Nat.mod_eq_of_lt h]

/-- Settles O11. -/
theorem idle2SkipsWhenStopped : Obligations.Idle2SkipsWhenStopped := by
  intro s d hd hne hstop
  rw [exec_idle2_of_drain hd hne, deliver_of_stop hd hstop, setPos_of_drain hd]
  rfl

/-- R161: the test after an append looks at the new byte and the one before it. -/
theorem terminated_appendByte_iff (s : State) (b : Byte) :
    (s.appendByte b).terminated = true ↔
      1 ≤ s.cursor ∧ s.elem .asm (s.cursor - 1) = Config.cr ∧ b = Config.lf := by
  rw [terminated_iff, elem_asm_appendByte, elem_asm_appendByte, appendByte_cursor]
  rcases Nat.eq_zero_or_pos s.cursor with hzero | hpos
  · simp [hzero]
  · have hbefore : s.cursor + 1 - 2 = s.cursor - 1 := by omega
    rw [hbefore, Nat.add_sub_cancel, if_pos rfl, if_neg (by omega), Nat.succ_le_succ_iff]

/-- Settles O12: `INGEST` finds room and no terminator, so it appends. -/
theorem idle2AppendsOrdinaryByte : Obligations.Idle2AppendsOrdinaryByte := by
  intro s d hd hne hpos hstop hroom hplain
  have hingest : s.ingest (s.elem .ring d.pos) = s.appendByte (s.elem .ring d.pos) := by
    rcases ingest_cases (s.elem .ring d.pos) s with ⟨hfull, -⟩ | ⟨-, hterm, -⟩ | ⟨-, -, h⟩
    · omega
    · exact absurd ((terminated_appendByte_iff s _).mp hterm) hplain
    · exact h
  rw [exec_idle2_of_drain hd hne, deliver_of_not_stop hd hstop, ringAt_of_lt hpos, hingest,
    setPos_of_drain (s := s.appendByte _) hd]
  rfl

/-! ## What micro-step 2 stores to (R62, R161, R163, R164) -/

/-- R250: of the arrays, agent I writes the assembler alone. -/
theorem OnlyInterruptState.elem {s t : State} (h : OnlyInterruptState s t) {a : Config.ArrayName}
    (ha : a ≠ .asm) (i : Nat) : t.elem a i = s.elem a i := by
  have harray : t.array a = s.array a := by
    cases a with
    | ring => exact h.ring
    | asm => exact absurd rfl ha
    | pendText => exact h.pendText
    | txBuf => exact h.txBuf
  exact elem_congr harray h.epoch i

/-- R164: an overflow clears the whole assembler and nothing beyond it. -/
theorem elem_asm_overflow (s : State) (i : Nat) :
    s.overflow.elem .asm i = if i < s.params.maxLen then 0x00 else s.elem .asm i := by
  have harray : s.overflow.array .asm =
      (s.array .asm).writeBytes 0 (List.replicate s.params.maxLen 0x00) := rfl
  rw [State.elem, harray, get?_writeBytes]
  by_cases hi : i < s.params.maxLen <;> simp [hi, State.elem]

/-- R163: completion stores one byte, a zero in place of the carriage-return. -/
theorem elem_asm_complete (s : State) (i : Nat) :
    s.complete.elem .asm i = if i = s.cursor - 2 then 0x00 else s.elem .asm i :=
  elem_of_write (s := s) (a := .asm) (complete_asm s) (complete_epoch s) i

/-- R161, R163: with room, `INGEST` stores at `cursor`, and at the carriage-return before it when the
byte completes a message. -/
theorem elem_asm_ingest_of_room {s : State} {b : Byte} {i : Nat}
    (hroom : s.cursor < s.params.maxLen) (hcursor : i ≠ s.cursor)
    (hterm : s.elem .asm (s.cursor - 1) = Config.cr → b = Config.lf → i + 1 ≠ s.cursor) :
    (s.ingest b).elem .asm i = s.elem .asm i := by
  have happend : (s.appendByte b).elem .asm i = s.elem .asm i := by
    rw [elem_asm_appendByte, if_neg hcursor]
  rcases ingest_cases b s with ⟨hfull, -⟩ | ⟨-, hdone, h⟩ | ⟨-, -, h⟩
  · omega
  · obtain ⟨hpos, hcr, hlf⟩ := (terminated_appendByte_iff s b).mp hdone
    have hbefore := hterm hcr hlf
    rw [h, elem_asm_complete, appendByte_cursor, if_neg (by omega), happend]
  · rw [h, happend]

/-- R62: `INGEST` stores to no element at or above MAX_LEN. -/
theorem elem_asm_ingest_of_le {s : State} {i : Nat} (hi : s.params.maxLen ≤ i) (b : Byte) :
    (s.ingest b).elem .asm i = s.elem .asm i := by
  rcases ingest_cases b s with ⟨-, h⟩ | ⟨hroom, -⟩ | ⟨hroom, -⟩
  · rw [h, elem_asm_overflow, if_neg (Nat.not_lt.mpr hi)]
  all_goals exact elem_asm_ingest_of_room hroom (by omega) fun _ _ => by omega

/-- Settles O15: the byte is skipped, or `INGEST` stores it within the assembler. -/
theorem idle2StoresOnlyInAssembler : Obligations.Idle2StoresOnlyInAssembler := by
  intro s d hd hne hpos
  refine ⟨_, exec_idle2_of_drain hd hne,
    fun a i ha => (deliver_onlyInterrupt s _).elem ha i, ?_⟩
  rw [ringAt_of_lt hpos]
  cases hstop : d.stop with
  | true =>
    rw [deliver_of_stop hd hstop]
    exact ⟨fun _ _ => rfl, fun _ _ _ _ => rfl, fun _ _ => rfl⟩
  | false =>
    rw [deliver_of_not_stop hd hstop]
    exact ⟨nofun, fun hroom i hcursor hterm => elem_asm_ingest_of_room hroom hcursor hterm,
      fun i hi => elem_asm_ingest_of_le hi _⟩

end Sys2Proof.Machine

/-! # The line decoder: overflow, completed messages, and the lines of a burst (R161 to R181) -/

namespace Sys2Proof.Machine

/-! ## Overflow (R164) -/

theorem ingest_of_full {s : State} (hfull : s.params.maxLen ≤ s.cursor) (b : Byte) :
    s.ingest b = s.overflow := by
  rcases ingest_cases b s with ⟨-, h⟩ | ⟨hroom, -⟩ | ⟨hroom, -⟩
  · exact h
  all_goals omega

/-- Settles O13: `INGEST` finds the assembler full. -/
theorem idle2OverflowClearsAssembler : Obligations.Idle2OverflowClearsAssembler := by
  intro s d hd hne hstop hfull
  refine ⟨s.overflow.setPos (s.nextIndex d.pos), ?_, ?_, ?_, ?_⟩
  · rw [exec_idle2_of_drain hd hne, deliver_of_not_stop hd hstop, ingest_of_full hfull.ge]
  · exact fun i hi => (elem_asm_overflow s i).trans (if_pos hi)
  · exact fun i hi => (elem_asm_overflow s i).trans (if_neg (Nat.not_lt.mpr hi))
  · rw [setPos_of_drain (s := s.overflow) hd]
    rfl

/-! ## Completion, written out (R163, R181) -/

theorem correlate_eq (s : State) (text : List Byte) :
    s.correlate text = { s with
      pendValid := s.pendValid && !s.isEcho text
      out := if s.isEcho text then s.out else s.out ++ [.msg text] } := by
  rcases correlate_cases text s with ⟨hecho, h⟩ | ⟨hecho, h⟩ <;> rw [h, hecho]
  · simp
  · simp [State.emit]

theorem applyScanPolicy_eq (s : State) :
    s.applyScanPolicy = { s with
      drain := s.drain.map fun d =>
        { d with stop := d.stop || decide (s.params.scanPolicy = .dropRest) } } := by
  rcases applyScanPolicy_cases s with ⟨hpolicy, h⟩ | ⟨hpolicy, h⟩ <;> rw [h, hpolicy]
  · simp
  · simp

/-- R163: the cut stores a zero just behind the text, so the text is what stood there before it. -/
theorem messageText_cutMessage (s : State) :
    s.cutMessage.messageText = s.prefixBytes .asm (s.cursor - 2) :=
  prefixBytes_congr fun i hi =>
    (elem_of_write (s := s) (t := s.cutMessage) (a := .asm) rfl rfl i).trans
      (if_neg (Nat.ne_of_lt hi))

/-- R163, R181: everything `COMPLETE` does. -/
theorem complete_eq {s : State} {text : List Byte} (h : s.prefixBytes .asm (s.cursor - 2) = text) :
    s.complete = { s with
      asm := s.asm.write (s.cursor - 2) 0x00
      msgLen := s.cursor - 2
      ready := false
      cursor := 0
      pendValid := s.pendValid && !s.isEcho text
      out := if s.isEcho text then s.out else s.out ++ [.msg text]
      drain := s.drain.map fun d =>
        { d with stop := d.stop || decide (s.params.scanPolicy = .dropRest) } } := by
  have hecho : s.cutMessage.isEcho text = s.isEcho text := rfl
  rw [State.complete, messageText_cutMessage, h, correlate_eq, hecho, applyScanPolicy_eq]
  rfl

/-- R181: the echo test in full, on a pending command within its range (R20). -/
theorem isEcho_of_le {s : State} (h : s.pendLen ≤ s.params.txMax) (text : List Byte) :
    s.isEcho text = (s.pendValid && matchEcho s.params.echoPolicy text
      (stripTerminator (s.prefixBytes .pendText s.pendLen))) := by
  rw [State.isEcho, State.pendCommand, Nat.min_eq_left h]

/-- R161: a line-feed that finds room, after a carriage-return, completes a message. -/
theorem ingest_lf_of_cr {s : State} (hroom : s.cursor < s.params.maxLen) (hpos : 1 ≤ s.cursor)
    (hcr : s.elem .asm (s.cursor - 1) = Config.cr) :
    s.ingest Config.lf = (s.appendByte Config.lf).complete := by
  have hterm : (s.appendByte Config.lf).terminated = true :=
    (terminated_appendByte_iff s _).mpr ⟨hpos, hcr, rfl⟩
  rcases ingest_cases Config.lf s with ⟨hfull, -⟩ | ⟨-, -, h⟩ | ⟨-, hnot, -⟩
  · omega
  · exact h
  · exact absurd (hterm.symm.trans hnot) nofun

/-- R163: the text of a message lies below both bytes of its terminator. -/
theorem prefixBytes_appendByte (s : State) (b : Byte) {n : Nat} (h : n ≤ s.cursor) :
    (s.appendByte b).prefixBytes .asm n = s.prefixBytes .asm n :=
  prefixBytes_congr fun i hi => by rw [elem_asm_appendByte, if_neg (by omega)]

/-- Settles O14: the line-feed is appended and completes the message before it. -/
theorem idle2CompletesMessage : Obligations.Idle2CompletesMessage := by
  intro s d hd hne hlt hstop hpos hroom hpend hcr hlf
  have hafter : s.cursor + 1 - 2 = s.cursor - 1 := by omega
  have hasm (i : Nat) : ((s.appendByte Config.lf).complete).elem .asm i =
      if i = s.cursor - 1 then 0x00 else if i = s.cursor then Config.lf else s.elem .asm i := by
    rw [elem_asm_complete, elem_asm_appendByte, appendByte_cursor, hafter]
  refine ⟨(s.appendByte Config.lf).complete.setPos (s.nextIndex d.pos), _, ?_, rfl, ?_, ?_, ?_, ?_⟩
  · rw [exec_idle2_of_drain hd hne, deliver_of_not_stop hd hstop, ringAt_of_lt hlt, hlf]
    exact congrArg _ (congrArg _ (ingest_lf_of_cr hroom hpos hcr))
  · exact (hasm _).trans (if_pos rfl)
  · exact (hasm _).trans ((if_neg (by omega)).trans (if_pos rfl))
  · exact fun i hbefore hcursor => (hasm i).trans ((if_neg hbefore).trans (if_neg hcursor))
  · have htext := prefixBytes_appendByte s Config.lf (Nat.sub_le s.cursor 1)
    have hecho : (s.appendByte Config.lf).isEcho (s.prefixBytes .asm (s.cursor - 1)) = _ :=
      isEcho_of_le (s := s) hpend _
    obtain ⟨wp, pos, stop, ws⟩ := d
    obtain rfl : stop = false := hstop
    rw [complete_eq htext, hecho, setPos_of_drain (congrArg (Option.map _) hd)]
    rfl

/-! ## Bytes without a terminator (R161) -/

/-- No carriage-return of `bs` is followed by a line-feed (R162). -/
def Unterminated (bs : List Byte) : Prop :=
  ∀ k, ¬(bs[k]? = some Config.cr ∧ bs[k + 1]? = some Config.lf)

theorem Unterminated.of_append {bs cs : List Byte} (h : Unterminated (bs ++ cs)) :
    Unterminated bs := by
  rintro k ⟨hcr, hlf⟩
  have hk : k + 1 < bs.length := (List.getElem?_eq_some_iff.mp hlf).1
  refine h k ⟨?_, ?_⟩ <;> rwa [List.getElem?_append_left (by omega)]

theorem Unterminated.append_cr {bs : List Byte} (h : Unterminated bs) :
    Unterminated (bs ++ [Config.cr]) := by
  rintro k ⟨hcr, hlf⟩
  rcases Nat.lt_or_ge (k + 1) bs.length with hk | hk
  · rw [List.getElem?_append_left (by omega)] at hcr hlf
    exact h k ⟨hcr, hlf⟩
  · rw [List.getElem?_append_right hk, List.getElem?_singleton] at hlf
    split at hlf
    · exact absurd (Option.some.inj hlf) (by decide)
    · cases hlf

/-- The state with the bytes `bs` in an assembler that was empty (R161). -/
def State.collect (bs : List Byte) (s : State) : State :=
  { s with asm := s.asm.writeBytes 0 bs, cursor := bs.length }

theorem getElem?_eq_elem_collect (s : State) {bs : List Byte} {i : Nat} (h : i < bs.length) :
    bs[i]? = some ((s.collect bs).elem .asm i) := by
  have harray : (s.collect bs).array .asm = (s.array .asm).writeBytes 0 bs := rfl
  rw [State.elem, harray, get?_writeBytes]
  simp [h]

theorem prefixBytes_collect_append (s : State) (bs cs : List Byte) :
    (s.collect (bs ++ cs)).prefixBytes .asm bs.length = bs := by
  apply List.ext_getElem?
  intro i
  rw [getElem?_prefixBytes]
  split
  case isTrue hi =>
    rw [← getElem?_eq_elem_collect s (by simp; omega), List.getElem?_append_left hi]
  case isFalse hi => exact (List.getElem?_eq_none (by omega)).symm

theorem writeBytes_concat (m : Memory) (i : Nat) (bs : List Byte) (b : Byte) :
    m.writeBytes i (bs ++ [b]) = (m.writeBytes i bs).write (i + bs.length) b := by
  induction bs generalizing m i with
  | nil => rfl
  | cons c bs ih =>
    rw [List.cons_append, writeBytes_cons, ih, writeBytes_cons, List.length_cons]
    congr 1
    omega

theorem collect_concat (bs : List Byte) (b : Byte) (s : State) :
    s.collect (bs ++ [b]) = (s.collect bs).appendByte b := by
  simp [State.collect, State.appendByte, writeBytes_concat]

theorem deliverAll_concat (bs : List Byte) (b : Byte) (s : State) :
    s.deliverAll (bs ++ [b]) = (s.deliverAll bs).deliver b := List.foldl_append

/-- R161: bytes that fit and hold no terminator are only collected: the pair that the test of
`INGEST` looks at is a pair of them. -/
theorem deliverAll_eq_collect {s : State} {d : Drain} (hd : s.drain = some d)
    (hstop : d.stop = false) (hempty : s.cursor = 0) {bs : List Byte} (hfit : bs.length ≤ s.params.maxLen)
    (hplain : Unterminated bs) : s.deliverAll bs = s.collect bs := by
  induction bs using List.reverseRecOn with
  | nil => rw [State.collect, writeBytes_nil, List.length_nil, ← hempty]; rfl
  | append_singleton bs b ih =>
    rw [List.length_append, List.length_singleton] at hfit
    rw [deliverAll_concat, ih (by omega) hplain.of_append,
      deliver_of_not_stop (s := s.collect bs) hd hstop, collect_concat]
    rcases ingest_cases b (s.collect bs) with ⟨hfull, -⟩ | ⟨-, hterm, -⟩ | ⟨-, -, h⟩
    · exact absurd (hfit.trans hfull) (Nat.not_succ_le_self _)
    · obtain ⟨hpos, hcr, hlf⟩ := (terminated_appendByte_iff _ b).mp hterm
      have hpos : 1 ≤ bs.length := hpos
      refine absurd ⟨?_, ?_⟩ (hplain (bs.length - 1))
      · rw [List.getElem?_append_left (by omega), getElem?_eq_elem_collect s (by omega)]
        exact congrArg some hcr
      · rw [Nat.sub_add_cancel hpos, List.getElem?_concat_length, hlf]
    · exact h

/-! ## One burst and its `IDLE` (R125, R145) -/

namespace OnlyProducerState

theorem refl (s : State) : OnlyProducerState s s := by
  constructor <;> simp

theorem trans {s t u : State} (h : OnlyProducerState s t) (k : OnlyProducerState t u) :
    OnlyProducerState s u where
  params := k.params.trans h.params
  stream := k.stream.trans h.stream
  armed := k.armed.trans h.armed
  consumed := k.consumed.trans h.consumed
  cursor := k.cursor.trans h.cursor
  msgLen := k.msgLen.trans h.msgLen
  ready := k.ready.trans h.ready
  pendValid := k.pendValid.trans h.pendValid
  pendLen := k.pendLen.trans h.pendLen
  pendTime := k.pendTime.trans h.pendTime
  inFlight := k.inFlight.trans h.inFlight
  txLen := k.txLen.trans h.txLen
  schedRef := k.schedRef.trans h.schedRef
  rxSeen := k.rxSeen ∘ h.rxSeen
  asm := k.asm.trans h.asm
  pendText := k.pendText.trans h.pendText
  txBuf := k.txBuf.trans h.txBuf
  drain := k.drain.trans h.drain
  out := k.out.trans h.out
  cTotal := k.cTotal.trans h.cTotal
  txOwed := k.txOwed.trans h.txOwed
  epoch := k.epoch.trans h.epoch

/-- R250: what the echo test reads is not the producer's. -/
theorem isEcho {s t : State} (h : OnlyProducerState s t) (text : List Byte) :
    t.isEcho text = s.isEcho text := by
  have hpend (n : Nat) : t.prefixBytes .pendText n = s.prefixBytes .pendText n :=
    prefixBytes_congr fun i _ => elem_congr (a := .pendText) h.pendText h.epoch i
  simp [State.isEcho, State.pendCommand, hpend, h.params, h.pendValid, h.pendLen]

end OnlyProducerState

theorem runEvents_rx_onlyProducer {bs : List Byte} {s r : State}
    (h : runEvents (Instr.rx bs) s = .next r) : OnlyProducerState s r := by
  induction bs generalizing s with
  | nil =>
    obtain rfl := Host.Outcome.next.inj h
    exact .refl s
  | cons b bs ih =>
    exact (receive_onlyProducer s b).trans (ih ((runEvents_cons (exec_rxbyte b s) _).symm.trans h))

/-- R125: after a burst shorter than the ring, with nothing unread before it, `IDLE` delivers the
whole burst; what the line decoder and the correlator read is as before it. -/
theorem runEvents_rxi_of_lt {bs : List Byte} {s : State} (hinv : Inv s) (harmed : s.armed = true)
    (hidle : s.drain = none) (hc : s.consumed = s.writePos) (hlt : bs.length < s.params.capacity) :
    ∃ r, OnlyProducerState s r ∧ runEvents (Instr.rxi bs) s = .next
      { r.beginDrain.deliverAll bs with
        consumed := r.writePos, cTotal := r.wTotal, drain := none } := by
  obtain ⟨r, hr, hrun⟩ := burstDeliversNewestBytes bs s harmed hidle hinv.remaining_pos
    hinv.remaining_le hc
  rw [Nat.mod_eq_of_lt hlt, Nat.sub_self, List.drop_zero] at hrun
  exact ⟨r, runEvents_rx_onlyProducer hr, hrun⟩

/-! ## Lines and over-long bursts (R163, R164, R171) -/

/-- R163: a whole line that fits is collected, and its terminator completes it. -/
theorem deliverAll_line {s : State} {d : Drain} (hd : s.drain = some d) (hstop : d.stop = false)
    (hempty : s.cursor = 0) {text : List Byte} (hfit : text.length + 2 ≤ s.params.maxLen)
    (hplain : Unterminated text) :
    s.deliverAll (text ++ [Config.cr, Config.lf]) =
      (s.collect (text ++ [Config.cr, Config.lf])).complete := by
  have hline : text ++ [Config.cr, Config.lf] = (text ++ [Config.cr]) ++ [Config.lf] := by simp
  have hlen : (s.collect (text ++ [Config.cr])).cursor = text.length + 1 :=
    List.length_append.trans (congrArg _ List.length_singleton)
  have hfill : s.deliverAll (text ++ [Config.cr]) = s.collect (text ++ [Config.cr]) :=
    deliverAll_eq_collect hd hstop hempty (hlen.trans_le (by omega)) hplain.append_cr
  have hcr : (s.collect (text ++ [Config.cr])).elem .asm text.length = Config.cr :=
    Option.some.inj
      ((getElem?_eq_elem_collect s (by simp)).symm.trans List.getElem?_concat_length)
  have hlf := ingest_lf_of_cr (hlen.trans_lt hfit) (by omega) (by rwa [hlen, Nat.add_sub_cancel])
  rw [hline, deliverAll_concat, hfill, deliver_of_not_stop (s := s.collect _) hd hstop, hlf,
    ← collect_concat]

/-- Settles O22: the burst reaches the line decoder whole, as one line. -/
theorem terminatedLineBecomesOneMessage : Obligations.TerminatedLineBecomesOneMessage := by
  intro text s hinv harmed hidle hc hempty hlt hfit hplain
  obtain ⟨r, hr, hrun⟩ := runEvents_rxi_of_lt (bs := text ++ [Config.cr, Config.lf]) hinv harmed
    hidle hc (by simpa using hlt)
  have hline := deliverAll_line (s := r.beginDrain) (beginDrain_drain r) rfl
    (hr.cursor.trans hempty) (hfit.trans_eq (congrArg _ hr.params.symm)) hplain
  have hlen : (text ++ [Config.cr, Config.lf]).length - 2 = text.length := by simp
  have htext : (r.beginDrain.collect (text ++ [Config.cr, Config.lf])).prefixBytes .asm
      ((text ++ [Config.cr, Config.lf]).length - 2) = text := by
    rw [hlen, prefixBytes_collect_append]
  have hecho : (r.beginDrain.collect (text ++ [Config.cr, Config.lf])).isEcho text =
      s.isEcho text := hr.isEcho text
  rw [hline, complete_eq htext, hecho, isEcho_of_le hinv.pendLen_le] at hrun
  refine ⟨_, _, hrun, rfl, ?_, ?_, hlen, rfl, rfl, rfl⟩
  · rw [← hr.out]
    rfl
  · rw [← hr.pendValid]
    rfl

/-- Settles O23: the first MAX_LEN bytes fill the assembler, and the last one finds it full. -/
theorem oversizeBurstYieldsNoMessage : Obligations.OversizeBurstYieldsNoMessage := by
  intro bs s hinv harmed hidle hc hempty hlen hlt hplain
  obtain ⟨r, hr, hrun⟩ := runEvents_rxi_of_lt hinv harmed hidle hc hlt
  rcases List.eq_nil_or_concat' bs with rfl | ⟨init, last, rfl⟩
  · cases hlen
  · have hfill : init.length = r.beginDrain.params.maxLen := by
      rw [beginDrain_params, hr.params]
      simpa using hlen
    have hcollect : r.beginDrain.deliverAll init = r.beginDrain.collect init :=
      deliverAll_eq_collect (beginDrain_drain r) rfl (hr.cursor.trans hempty) hfill.le
        (Unterminated.of_append hplain)
    rw [deliverAll_concat, hcollect, deliver_of_not_stop (s := r.beginDrain.collect init)
      (beginDrain_drain r) rfl, ingest_of_full hfill.ge] at hrun
    refine ⟨_, hrun, hr.out, rfl, hr.msgLen, hr.pendValid, fun i hi => ?_⟩
    exact (elem_asm_overflow (r.beginDrain.collect init) i).trans
      (if_pos (hi.trans_eq (congrArg _ hr.params.symm)))

end Sys2Proof.Machine

/-! # The command correlator: `STRIP`, `MATCH`, the echo of a sent command (R181 to R189) -/

namespace Sys2Proof.Machine

/-! ## `STRIP` (R185) -/

/-- The test of `STRIP`, read as a shape: the last two bytes are looked at, and nothing else. -/
theorem endsInTerminator_iff (p : List Byte) :
    (2 ≤ p.length ∧ p[p.length - 2]? = some Config.cr ∧ p[p.length - 1]? = some Config.lf) ↔
      ∃ q, p = q ++ [Config.cr, Config.lf] := by
  constructor
  · rintro ⟨hlen, hcr, hlf⟩
    refine ⟨p.take (p.length - 2), ?_⟩
    obtain ⟨n, hn⟩ : ∃ n, p.length = n + 2 := ⟨p.length - 2, by omega⟩
    rw [hn, Nat.add_sub_cancel] at hcr ⊢
    rw [hn, Nat.add_sub_assoc (by decide)] at hlf
    obtain ⟨hcr_lt, hcr⟩ := List.getElem?_eq_some_iff.mp hcr
    obtain ⟨hlf_lt, hlf⟩ := List.getElem?_eq_some_iff.mp hlf
    calc p
      _ = p.take n ++ p.drop n := (List.take_append_drop n p).symm
      _ = p.take n ++ [Config.cr, Config.lf] := by
        rw [List.drop_eq_getElem_cons hcr_lt, List.drop_eq_getElem_cons hlf_lt, hcr, hlf,
          List.drop_of_length_le hn.le]
  · rintro ⟨q, rfl⟩
    simp

theorem stripTerminator_append (p : List Byte) :
    stripTerminator (p ++ [Config.cr, Config.lf]) = p := by
  rw [stripTerminator, if_pos ((endsInTerminator_iff _).mpr ⟨p, rfl⟩)]
  simp

theorem stripTerminator_of_not_terminated {p : List Byte}
    (h : ¬ ∃ q, p = q ++ [Config.cr, Config.lf]) : stripTerminator p = p :=
  if_neg (mt (endsInTerminator_iff p).mp h)

/-- Settles O24. -/
theorem stripRemovesOneTerminator : Obligations.StripRemovesOneTerminator :=
  ⟨stripTerminator_append, fun _ => stripTerminator_of_not_terminated⟩

/-! ## `MATCH` (R184) -/

theorem containsBytes_iff_infix (hay needle : List Byte) :
    containsBytes hay needle = true ↔ needle <:+: hay := by
  induction hay with
  | nil => rw [containsBytes, List.isEmpty_iff, List.infix_nil]
  | cons b hay ih =>
    rw [containsBytes, Bool.or_eq_true, List.isPrefixOf_iff_prefix, ih, List.infix_cons_iff]

theorem matchEcho_exact_iff (text p : List Byte) : matchEcho .exact text p = true ↔ text = p :=
  decide_eq_true_iff

theorem matchEcho_contains_iff (text p : List Byte) :
    matchEcho .contains text p = true ↔ p <:+: text :=
  containsBytes_iff_infix text p

/-- EXACT implies CONTAINS (R184), so the command itself matches under either policy. -/
theorem matchEcho_self (policy : Config.EchoPolicy) (p : List Byte) :
    matchEcho policy p p = true := by
  cases policy with
  | exact => exact (matchEcho_exact_iff p p).mpr rfl
  | contains => exact (matchEcho_contains_iff p p).mpr p.infix_refl

/-- Settles O25: equality, and the sublist in one piece, index by index. -/
theorem matchComparesByPolicy : Obligations.MatchComparesByPolicy := by
  refine ⟨fun text p => ?_, fun text p => ?_⟩
  · rw [matchEcho_exact_iff]
    constructor
    · rintro rfl
      exact ⟨rfl, fun _ _ => rfl⟩
    · rintro ⟨hlen, hbytes⟩
      refine List.ext_getElem?' fun i hi => hbytes i ?_
      rwa [hlen, Nat.max_self] at hi
  · rw [matchEcho_contains_iff, List.infix_iff_getElem?]
    refine exists_congr fun k => and_congr (by rw [Nat.add_comm]) ?_
    refine forall_congr' fun i => forall_congr' fun hi => ?_
    rw [Nat.add_comm, List.getElem?_eq_getElem hi]

/-! ## `pend_time` (R189) -/

/-- The state with `pend_time` wiped. -/
def State.forgetPendTime (s : State) : State := { s with pendTime := 0 }

theorem forgetPendTime_hidesUnread : HidesUnread State.forgetPendTime where
  shown := fun _ => rfl
  update := fun o s => by
    cases o with
    | storeByte b => simp only [Update.apply, storeByte_eq]; rfl
    | endDrain =>
      cases hd : s.drain <;> simp [Update.apply, State.endDrain, State.forgetPendTime, hd]
    | setFlag f v => cases f <;> rfl
    | _ => rfl
  restart := fun _ => rfl

/-- Two states that look alike both go on, to states that look alike. -/
theorem HidesUnread.exec_next {view : State → State} (hv : HidesUnread view) {s u : State}
    (h : view s = view u) (i : Instr) :
    ∃ t v, Machine.exec i s = .next t ∧ Machine.exec i u = .next v ∧ view t = view v := by
  obtain ⟨t, ht, -⟩ := exec_stepBlock i s
  obtain ⟨v, hu, -⟩ := exec_stepBlock i u
  have halike := hv.exec h i
  rw [ht, hu] at halike
  exact ⟨t, v, ht, hu, Host.Outcome.next.inj halike⟩

/-- States that look alike without `pend_time` differ in `pend_time` alone. -/
theorem eq_of_forgetPendTime_eq {s u : State} (h : s.forgetPendTime = u.forgetPendTime) :
    u = { s with pendTime := u.pendTime } :=
  calc u = { u.forgetPendTime with pendTime := u.pendTime } := rfl
    _ = { s.forgetPendTime with pendTime := u.pendTime } := by rw [h]
    _ = { s with pendTime := u.pendTime } := rfl

/-- Settles O50. -/
theorem pendingTimeIsNeverRead : Obligations.PendingTimeIsNeverRead := by
  intro i s x
  obtain ⟨t, v, ht, hv, halike⟩ :=
    forgetPendTime_hidesUnread.exec_next (s := s) (u := { s with pendTime := x }) rfl i
  exact ⟨t, v.pendTime, ht, hv.trans (congrArg _ (eq_of_forgetPendTime_eq halike))⟩

/-! ## A sent command and its echo (R188, R198) -/

theorem prefixBytes_of_writeBytes {s t : State} {a : Config.ArrayName} {data : List Byte}
    (h : t.array a = (s.array a).writeBytes 0 data) : t.prefixBytes a data.length = data := by
  apply List.ext_getElem?
  intro i
  rw [getElem?_prefixBytes]
  split
  case isTrue hi =>
    have hget : (t.array a).get? i = some data[i] := by simp [h, get?_writeBytes, hi]
    rw [elem_of_get? hget, List.getElem?_eq_getElem hi]
  case isFalse hi => exact (List.getElem?_eq_none (Nat.le_of_not_lt hi)).symm

/-- The state after a command send that the engine has taken (R197, R198, R201). -/
def State.commandSent (now : Time) (data : List Byte) (s : State) : State :=
  ((s.recordPending now data).startTransfer now data).emit (.res .ok)

theorem exec_sendc_started {s : State} {data : List Byte} (hidle : s.drain = none)
    (hgate : s.inFlight = false) (hl : s.dataLegal data = true) (now : Time) :
    exec (.sendc .ok now data) s = .next (s.commandSent now data) := by
  have hexec : exec (.sendc .ok now data) s =
      s.accept (s.dataLegal data && !s.idleRun) (s.send true .ok now data) := rfl
  rcases send_cases true .ok now data s with ⟨hbusy, -⟩ | ⟨-, -, hsend⟩ | ⟨-, hne, -⟩
  · exact absurd (hbusy.symm.trans hgate) nofun
  · rw [hexec, hsend, hl, State.idleRun, hidle]
    rfl
  · exact absurd rfl hne

theorem prefixBytes_commandSent (s : State) (now : Time) (data : List Byte) :
    (s.commandSent now data).prefixBytes .pendText data.length = data :=
  prefixBytes_of_writeBytes (s := s) rfl

/-- Settles O26: after the send, the line is one message (R171), and the pending command stripped is
that message. -/
theorem ownEchoIsSuppressed : Obligations.OwnEchoIsSuppressed := by
  intro text now s hinv harmed hidle hgate hc hempty hlt hfit hle hplain
  have hl : s.dataLegal (text ++ [Config.cr, Config.lf]) = true :=
    (dataLegal_iff s _).mpr ⟨by simp, by simpa using hle⟩
  have hsend := exec_sendc_started hidle hgate hl now
  obtain ⟨t, echo, hrun, hecho, hout, hvalid, -⟩ :=
    terminatedLineBecomesOneMessage text (s.commandSent now (text ++ [Config.cr, Config.lf]))
      (hinv.exec hsend) harmed hidle hc hempty hlt hfit hplain
  have hpend : (s.commandSent now (text ++ [Config.cr, Config.lf])).prefixBytes .pendText
      (s.commandSent now (text ++ [Config.cr, Config.lf])).pendLen =
      text ++ [Config.cr, Config.lf] := prefixBytes_commandSent s now _
  obtain rfl : echo = true := by
    rw [hecho, hpend, stripTerminator_append, matchEcho_self]
    rfl
  refine ⟨t, (runEvents_cons hsend _).trans hrun, ?_, ?_⟩
  · rw [hout, if_pos rfl]
    exact List.append_assoc ..
  · rw [hvalid, Bool.not_true, Bool.and_false]

end Sys2Proof.Machine

/-! # The transmit gate and the scheduler: `SENDD`, `SENDC`, `TXDONE`, `POLL` (R196 to R211) -/

namespace Sys2Proof.Machine

/-! ## `TXDONE` (R204) -/

theorem exec_txdone {s : State} (hidle : s.drain = none) :
    exec .txdone s = .next s.completeTransfer := by
  have hexec : exec .txdone s = s.accept (!s.idleRun) s.completeTransfer := rfl
  rw [hexec, State.idleRun, hidle]
  rfl

/-- Settles O30. -/
theorem txdoneOpensGate : Obligations.TxdoneOpensGate :=
  fun _ hidle => ⟨_, exec_txdone hidle, rfl⟩

/-! ## `SENDD` and `SENDC` (R197, R198, R200, R201) -/

/-- Either send with legal data, between drains, is `SEND` (R200, R201). -/
theorem exec_send {s : State} {data : List Byte} (hidle : s.drain = none)
    (hpos : 1 ≤ data.length) (hle : data.length ≤ s.params.txMax) (cmd : Bool) (br : Br)
    (now : Time) :
    exec (if cmd then .sendc br now data else .sendd br now data) s =
      .next (s.send cmd br now data) := by
  have henabled : (s.dataLegal data && !s.idleRun) = true := by
    rw [(dataLegal_iff s data).mpr ⟨hpos, hle⟩, State.idleRun, hidle]
    rfl
  have haccept := congrArg (s.accept · (s.send cmd br now data)) henabled
  cases cmd with
  | false => exact haccept
  | true => exact haccept

theorem send_of_closed {s : State} (hclosed : s.inFlight = true) (cmd : Bool) (br : Br) (now : Time)
    (data : List Byte) : s.send cmd br now data = (s.raise .busy).emit (.res .busy) :=
  if_pos hclosed

theorem send_of_not_taken {s : State} (hopen : s.inFlight = false) {br : Br} (hbr : br ≠ .ok)
    (cmd : Bool) (now : Time) (data : List Byte) :
    s.send cmd br now data = s.emit (.res .busy) := by
  rcases send_cases cmd br now data s with ⟨hclosed, -⟩ | ⟨-, hok, -⟩ | ⟨-, -, he⟩
  · exact absurd (hclosed.symm.trans hopen) nofun
  · exact absurd hok hbr
  · exact he

theorem send_of_taken {s : State} (hopen : s.inFlight = false) (cmd : Bool) (now : Time)
    (data : List Byte) : s.send cmd .ok now data =
      ((if cmd then s.recordPending now data else s).startTransfer now data).emit (.res .ok) := by
  rcases send_cases cmd .ok now data s with ⟨hclosed, -⟩ | ⟨-, -, he⟩ | ⟨-, hne, -⟩
  · exact absurd (hclosed.symm.trans hopen) nofun
  · exact he
  · exact absurd rfl hne

/-- R198, R44: a transfer that starts and the record after it, as one update. -/
theorem startTransfer_emit (s : State) (now : Time) (data : List Byte) (r : Record) :
    (s.startTransfer now data).emit r =
      { s with
        inFlight := true
        txBuf := s.txBuf.writeBytes 0 data
        txLen := data.length
        schedRef := now
        out := s.out ++ [.txstart data, r]
        txOwed := true } := by
  rw [State.emit, startTransfer_out, List.append_assoc]
  rfl

/-- What either send answers to the gate and to the engine (R197, R198). -/
theorem exec_send_outcomes {s : State} {data : List Byte} (hidle : s.drain = none)
    (hpos : 1 ≤ data.length) (hle : data.length ≤ s.params.txMax) (cmd : Bool) (br : Br)
    (now : Time) :
    let event : Instr := if cmd then .sendc br now data else .sendd br now data
    let base : State := if cmd then s.recordPending now data else s
    (s.inFlight = true → exec event s = .next ((s.raise .busy).emit (.res .busy))) ∧
    (s.inFlight = false → br ≠ .ok → exec event s = .next (s.emit (.res .busy))) ∧
    (s.inFlight = false → br = .ok → exec event s = .next { base with
      inFlight := true
      txBuf := base.txBuf.writeBytes 0 data
      txLen := data.length
      schedRef := now
      out := base.out ++ [.txstart data, .res .ok]
      txOwed := true }) := by
  intro event base
  have hexec : exec event s = .next (s.send cmd br now data) :=
    exec_send hidle hpos hle cmd br now
  rw [hexec]
  refine ⟨fun hclosed => ?closed, fun hopen hbr => ?notTaken, fun hopen hbr => ?taken⟩
  case closed => rw [send_of_closed hclosed]
  case notTaken => rw [send_of_not_taken hopen hbr]
  case taken => rw [hbr, send_of_taken hopen, startTransfer_emit]

/-- Settles O27: `SEND` records no command. -/
theorem senddFollowsGate : Obligations.SenddFollowsGate := by
  intro br now data s hidle hpos hle
  obtain ⟨hclosed, hnotTaken, htaken⟩ := exec_send_outcomes hidle hpos hle false br now
  exact ⟨fun h => ⟨_, hclosed h, rfl⟩, hnotTaken, fun hopen hbr => ⟨_, htaken hopen hbr, rfl⟩⟩

/-- Settles O28: a `SEND` that starts records the command. -/
theorem sendcFollowsGate : Obligations.SendcFollowsGate := by
  intro br now data s hidle hpos hle
  obtain ⟨hclosed, hnotTaken, htaken⟩ := exec_send_outcomes hidle hpos hle true br now
  exact ⟨fun h => ⟨_, hclosed h, rfl⟩, hnotTaken, fun hopen hbr => ⟨_, htaken hopen hbr, rfl⟩⟩

/-! ## The arrays after a started send (R62, R198) -/

theorem elem_of_writeBytes_of_lt {s t : State} {a : Config.ArrayName} {data : List Byte} {i : Nat}
    (h : t.array a = (s.array a).writeBytes 0 data) (hi : i < data.length) :
    some (t.elem a i) = data[i]? := by
  have hget := getElem?_prefixBytes t a data.length i
  rw [prefixBytes_of_writeBytes h, if_pos hi] at hget
  exact hget.symm

theorem elem_of_writeBytes_of_not_lt {s t : State} {a : Config.ArrayName} {data : List Byte}
    {i : Nat} (h : t.array a = (s.array a).writeBytes 0 data) (he : t.epoch = s.epoch)
    (hi : ¬ i < data.length) : t.elem a i = s.elem a i := by
  simp [State.elem, h, he, get?_writeBytes, hi]

/-- The arrays a started send writes: `tx_buf`, and `pend_text` for a command (R198). -/
def SendWrites (cmd : Bool) (a : Config.ArrayName) : Prop :=
  a = .txBuf ∨ (cmd = true ∧ a = .pendText)

theorem array_send_of_written {s : State} (hopen : s.inFlight = false) {cmd : Bool}
    {a : Config.ArrayName} (ha : SendWrites cmd a) (now : Time) (data : List Byte) :
    (s.send cmd .ok now data).array a = (s.array a).writeBytes 0 data := by
  rw [send_of_taken hopen]
  rcases ha with rfl | ⟨rfl, rfl⟩
  · cases cmd <;> rfl
  · rfl

theorem array_send_of_not_written {s : State} (hopen : s.inFlight = false) {cmd : Bool}
    {a : Config.ArrayName} (ha : ¬ SendWrites cmd a) (now : Time) (data : List Byte) :
    (s.send cmd .ok now data).array a = s.array a := by
  rw [send_of_taken hopen]
  cases a with
  | ring => cases cmd <;> rfl
  | asm => cases cmd <;> rfl
  | txBuf => exact absurd (.inl rfl) ha
  | pendText =>
    cases cmd with
    | false => rfl
    | true => exact absurd (.inr ⟨rfl, rfl⟩) ha

/-- Settles O29, by whether the send writes the array, and then by the index. -/
theorem startedSendStoresOnlyItsData : Obligations.StartedSendStoresOnlyItsData := by
  intro cmd now data s hidle hopen hpos hle
  have hepoch : (s.send cmd .ok now data).epoch = s.epoch :=
    (send_onlyGate s cmd .ok now data).epoch
  refine ⟨_, exec_send hidle hpos hle cmd .ok now, fun i hi => ?txBuf, fun hcmd i hi => ?pendText,
    fun a i htx hpend => ?other⟩
  case txBuf => exact elem_of_writeBytes_of_lt (array_send_of_written hopen (.inl rfl) now data) hi
  case pendText =>
    exact elem_of_writeBytes_of_lt (array_send_of_written hopen (.inr ⟨hcmd, rfl⟩) now data) hi
  case other =>
    by_cases ha : SendWrites cmd a
    · have hi : ¬ i < data.length := fun hi =>
        ha.elim (fun h => htx ⟨h, hi⟩) fun ⟨hcmd, h⟩ => hpend ⟨hcmd, h, hi⟩
      exact elem_of_writeBytes_of_not_lt (array_send_of_written hopen ha now data) hepoch hi
    · exact elem_congr (array_send_of_not_written hopen ha now data) hepoch i

/-! ## `POLL` (R207) -/

theorem exec_poll {s : State} (hidle : s.drain = none) (br : Br) (now : Time) :
    exec (.poll br now) s = .next (s.schedulerTick br now) := by
  have hexec : exec (.poll br now) s = s.accept (!s.idleRun) (s.schedulerTick br now) := rfl
  rw [hexec, State.idleRun, hidle]
  rfl

theorem elapsed_iff (s : State) (now : Time) :
    s.elapsed now = true ↔ s.params.interval ≤ (now - s.schedRef).toNat :=
  decide_eq_true_iff

theorem schedulerTick_of_not_elapsed {s : State} {now : Time} (h : ¬ s.elapsed now = true)
    (br : Br) : s.schedulerTick br now = s := if_neg h

/-- R207, R209: an elapsed period is used up, sent or skipped. -/
theorem schedRef_schedulerTick_of_elapsed {s : State} {now : Time} (h : s.elapsed now = true)
    (br : Br) : (s.schedulerTick br now).schedRef = now := by
  rw [State.schedulerTick, if_pos h]

theorem schedulerTick_of_skipped {s : State} {br : Br} {now : Time} (h : s.elapsed now = true)
    (hskip : s.inFlight = true ∨ br ≠ .ok) :
    s.schedulerTick br now = { s with schedRef := now } := by
  rcases schedulerTick_cases br now s with ⟨hwait, -⟩ | ⟨-, -, he⟩ | ⟨-, hopen, hok, -⟩
  · exact absurd (hwait.symm.trans h) nofun
  · exact he
  · exact hskip.elim (fun hclosed => absurd (hclosed.symm.trans hopen) nofun) (absurd hok)

theorem schedulerTick_of_sent {s : State} {now : Time} (h : s.elapsed now = true)
    (hopen : s.inFlight = false) : s.schedulerTick .ok now =
      (s.recordPending now s.params.kaText).startTransfer now s.params.kaText := by
  rcases schedulerTick_cases .ok now s with ⟨hwait, -⟩ | ⟨-, hskip, -⟩ | ⟨-, -, -, he⟩
  · exact absurd (hwait.symm.trans h) nofun
  · exact hskip.elim (fun hclosed => absurd (hclosed.symm.trans hopen) nofun) (absurd rfl)
  · exact he

/-- Settles O31. -/
theorem pollFollowsScheduler : Obligations.PollFollowsScheduler := by
  intro br now s hidle
  rw [exec_poll hidle]
  refine ⟨fun hlt => ?waiting, fun hle hskip => ?skipped, fun hle hopen hbr => ?sent⟩
  case waiting =>
    rw [schedulerTick_of_not_elapsed (mt (elapsed_iff s now).mp (Nat.not_le.mpr hlt))]
  case skipped => rw [schedulerTick_of_skipped ((elapsed_iff s now).mpr hle) hskip]
  case sent =>
    rw [hbr, schedulerTick_of_sent ((elapsed_iff s now).mpr hle) hopen]
    exact ⟨_, rfl, rfl⟩

/-! ## Two polls within the interval (R208, R211) -/

/-- R42: one tick starts at most one transfer. -/
theorem txstarts_schedulerTick_le (s : State) (br : Br) (now : Time) :
    (s.schedulerTick br now).txstarts ≤ s.txstarts + 1 :=
  calc (s.schedulerTick br now).txstarts
    _ ≤ (s.schedulerTick br now).transferBound := Nat.le_add_right _ _
    _ ≤ s.transferBound := (LogStep.schedulerTick s br now).bound
    _ ≤ s.txstarts + 1 := Nat.add_le_add_left (by split <;> decide) _

/-- R204: completions touch the gate and the environment's debt alone. -/
theorem runEvents_txdones {s : State} (hidle : s.drain = none) (k : Nat) (trace : List Instr) :
    ∃ u : State, u = { s with inFlight := u.inFlight, txOwed := u.txOwed } ∧
      runEvents (List.replicate k .txdone ++ trace) s = runEvents trace u := by
  induction k generalizing s with
  | zero => exact ⟨s, rfl, rfl⟩
  | succ k ih =>
    obtain ⟨u, hu, hrun⟩ := ih (s := s.completeTransfer) hidle
    exact ⟨u, hu, (runEvents_cons (exec_txdone hidle) _).trans hrun⟩

/-- Settles O32: if the first poll uses up a period, the second comes too early; if it does not, it
leaves the state to the second. -/
theorem twoPollsSendAtMostOnce : Obligations.TwoPollsSendAtMostOnce := by
  intro br1 br2 t1 t2 k s hidle hnear
  have hgate := schedulerTick_onlyGate s br1 t1
  have hidle1 : (s.schedulerTick br1 t1).drain = none := hgate.drain.trans hidle
  obtain ⟨u, hu, hrun⟩ := runEvents_txdones hidle1 k [.poll br2 t2]
  have hidle2 : u.drain = none := (congrArg (fun v => v.drain) hu).trans hidle1
  have hcount : u.txstarts = (s.schedulerTick br1 t1).txstarts :=
    (congrArg State.txstarts hu).trans rfl
  refine ⟨u.schedulerTick br2 t2, ?run, ?bound⟩
  case run =>
    rw [runEvents_cons (exec_poll hidle br1 t1), hrun, runEvents_cons (exec_poll hidle2 br2 t2)]
    rfl
  case bound =>
    by_cases h : s.elapsed t1 = true
    · have href : u.schedRef = t1 :=
        (congrArg (fun v => v.schedRef) hu).trans (schedRef_schedulerTick_of_elapsed h br1)
      have hparams : u.params = s.params := (congrArg State.params hu).trans hgate.params
      have hearly : ¬ u.elapsed t2 = true := by
        rw [elapsed_iff, href, hparams]
        exact Nat.not_le.mpr hnear
      rw [schedulerTick_of_not_elapsed hearly, hcount]
      exact txstarts_schedulerTick_le s br1 t1
    · rw [schedulerTick_of_not_elapsed h] at hcount
      rw [← hcount]
      exact txstarts_schedulerTick_le u br2 t2

/-! ## What moves the reference time (R209) -/

/-- R99: a rejection does not move the reference time, so the event was accepted. -/
theorem eq_of_accept_of_schedRef_ne {s t u : State} {enabled : Bool}
    (h : s.accept enabled u = .next t) (hne : t.schedRef ≠ s.schedRef) : t = u := by
  rcases accept_cases s u enabled with ⟨-, he⟩ | ⟨-, he⟩ <;> cases he.symm.trans h
  · rfl
  · exact absurd rfl hne

/-- R197, R198, R209: a send that moves the reference time has started. -/
theorem started_of_schedRef_send_ne {s : State} {cmd : Bool} {br : Br} {now : Time}
    {data : List Byte} (hne : (s.send cmd br now data).schedRef ≠ s.schedRef) :
    br = .ok ∧ s.inFlight = false ∧ (s.send cmd br now data).inFlight = true ∧
      (s.send cmd br now data).schedRef = now := by
  rcases send_cases cmd br now data s with ⟨-, he⟩ | ⟨hopen, hbr, he⟩ | ⟨-, -, he⟩ <;>
    rw [he] at hne ⊢
  · exact absurd rfl hne
  · exact ⟨hbr, hopen, rfl, rfl⟩
  · exact absurd rfl hne

/-- Settles O35: the producer and the interrupt context never write the reference time (R250), nor
does `START`; of the sends and the poll only what was accepted counts. -/
theorem onlySendsAndElapsedPollsMoveReference :
    Obligations.OnlySendsAndElapsedPollsMoveReference := by
  intro i s t h hne
  have hproducer (ha : i.agent = .P) : t.schedRef = s.schedRef := by
    obtain ⟨u, hu, hkeep⟩ := exec_producer ha s
    cases hu.symm.trans h
    exact hkeep.schedRef
  have hinterrupt (ha : i.agent = .I) : t.schedRef = s.schedRef := by
    obtain ⟨u, hu, hkeep⟩ := exec_interrupt ha s
    cases hu.symm.trans h
    exact hkeep.schedRef
  cases i with
  | reset => exact .inl rfl
  | start =>
    cases eq_of_accept_of_schedRef_ne h hne
    exact absurd rfl hne
  | rxbyte b => exact absurd (hproducer rfl) hne
  | idle | txdone | idle1 | idle2 | idle3 => exact absurd (hinterrupt rfl) hne
  | sendd br now data =>
    cases eq_of_accept_of_schedRef_ne h hne
    obtain ⟨rfl, hopen, hclosed, href⟩ := started_of_schedRef_send_ne hne
    exact .inr (.inr ⟨now, data, .inl rfl, hopen, hclosed, href⟩)
  | sendc br now data =>
    cases eq_of_accept_of_schedRef_ne h hne
    obtain ⟨rfl, hopen, hclosed, href⟩ := started_of_schedRef_send_ne hne
    exact .inr (.inr ⟨now, data, .inr rfl, hopen, hclosed, href⟩)
  | poll br now =>
    cases eq_of_accept_of_schedRef_ne h hne
    have helapsed : s.elapsed now = true :=
      Decidable.byContradiction fun hearly =>
        hne (congrArg (fun u => u.schedRef) (schedulerTick_of_not_elapsed hearly br))
    exact .inr (.inl ⟨br, now, rfl, (elapsed_iff s now).mp helapsed,
      schedRef_schedulerTick_of_elapsed helapsed br⟩)

end Sys2Proof.Machine

/-! # Every operation completes; the two notifications commute (R230, R242) -/

namespace Sys2Proof.Machine

/-! ## No fault, no refusal (R230) -/

theorem exec_completes (i : Instr) (s : State) : ∃ t, exec i s = .next t := by
  obtain ⟨t, ht, -⟩ := exec_stepBlock i s
  exact ⟨t, ht⟩

/-- Settles O36: a step is an operation, the rejection of invalid bytes, or the end of the trace. -/
theorem everyOperationCompletes : Obligations.EveryOperationCompletes := by
  refine ⟨exec_completes, fun s => ?_⟩
  unfold step
  split
  case h_1 => exact ⟨s, rfl⟩
  case h_2 i rest _ => exact exec_completes i (s.withStream rest)
  case h_3 why rest _ => exact ⟨(s.withStream rest).reject, rfl⟩

/-! ## `IDLE` neither reads nor writes what `TXDONE` writes (R204, R242) -/

theorem correlate_completeTransfer (s : State) (text : List Byte) :
    s.completeTransfer.correlate text = (s.correlate text).completeTransfer := by
  unfold State.correlate
  rw [show s.completeTransfer.isEcho text = s.isEcho text from rfl]
  split <;> rfl

theorem applyScanPolicy_completeTransfer (s : State) :
    s.completeTransfer.applyScanPolicy = s.applyScanPolicy.completeTransfer := by
  unfold State.applyScanPolicy
  rw [completeTransfer_params]
  split <;> rfl

theorem complete_completeTransfer (s : State) :
    s.completeTransfer.complete = s.complete.completeTransfer := by
  have hcut : s.completeTransfer.cutMessage = s.cutMessage.completeTransfer := rfl
  have htext : s.cutMessage.completeTransfer.messageText = s.cutMessage.messageText := rfl
  have hready (t : State) :
      t.completeTransfer.setFlag .ready false = (t.setFlag .ready false).completeTransfer := rfl
  unfold State.complete
  rw [hcut, htext, correlate_completeTransfer, hready, applyScanPolicy_completeTransfer]
  rfl

theorem ingest_completeTransfer (s : State) (b : Byte) :
    s.completeTransfer.ingest b = (s.ingest b).completeTransfer := by
  have happ : s.completeTransfer.appendByte b = (s.appendByte b).completeTransfer := rfl
  unfold State.ingest
  rw [happ, complete_completeTransfer,
    show s.completeTransfer.assemblerFull = s.assemblerFull from rfl,
    show (s.appendByte b).completeTransfer.terminated = (s.appendByte b).terminated from rfl]
  split
  · rfl
  · split <;> rfl

theorem deliver_completeTransfer (s : State) (b : Byte) :
    s.completeTransfer.deliver b = (s.deliver b).completeTransfer := by
  unfold State.deliver
  rw [ingest_completeTransfer, show s.completeTransfer.stopped = s.stopped from rfl]
  split <;> rfl

theorem deliverNext_completeTransfer (s : State) :
    s.completeTransfer.deliverNext = s.deliverNext.completeTransfer := by
  cases hd : s.drain with
  | none => rw [deliverNext_none hd, deliverNext_none (s := s.completeTransfer) hd]
  | some d =>
    rw [deliverNext_eq hd, deliverNext_eq (s := s.completeTransfer) hd, deliver_completeTransfer]
    rfl

theorem drainLoop_completeTransfer (fuel : Nat) (s : State) :
    State.drainLoop fuel s.completeTransfer = (State.drainLoop fuel s).completeTransfer := by
  induction fuel generalizing s with
  | zero => rfl
  | succ k ih =>
    unfold State.drainLoop
    rw [show s.completeTransfer.drained = s.drained from rfl, deliverNext_completeTransfer, ih]
    split <;> rfl

theorem endDrain_completeTransfer (s : State) :
    s.completeTransfer.endDrain = s.endDrain.completeTransfer := by
  unfold State.endDrain
  rw [completeTransfer_drain]
  split <;> rfl

theorem drainSpan_completeTransfer (s : State) :
    s.completeTransfer.drainSpan = s.drainSpan.completeTransfer := by
  have hbegin : s.completeTransfer.beginDrain = s.beginDrain.completeTransfer := rfl
  unfold State.drainSpan
  rw [hbegin, completeTransfer_params, drainLoop_completeTransfer, endDrain_completeTransfer]

/-! ## The two notifications (R72, R242) -/

/-- R145, R149: whatever ran before it, a whole `IDLE` leaves no drain running. -/
theorem drainSpan_drain (s : State) : s.drainSpan.drain = none := by
  unfold State.drainSpan State.endDrain
  split
  · assumption
  · rfl

/-- R72: neither notification interrupts a running drain. -/
theorem exec_notification_of_drain {s : State} (hd : s.drain ≠ none) :
    exec .idle s = .next s.reject ∧ exec .txdone s = .next s.reject :=
  ⟨exec_of_not_hasStep (not_hasStep_of_drain hd nofun nofun nofun nofun),
    exec_of_not_hasStep (not_hasStep_of_drain hd nofun nofun nofun nofun)⟩

/-- Settles O37: with no drain running both notifications are accepted, in either order, and their
bodies commute; in a running drain both are rejected. -/
theorem idleAndTxdoneCommute : Obligations.IdleAndTxdoneCommute := by
  intro s
  by_cases hd : s.drain = none
  · have hd' : s.completeTransfer.drain = none := hd
    calc runEvents [.idle, .txdone] s
        = .next s.drainSpan.completeTransfer := by
          rw [runEvents_cons (exec_idle hd), runEvents_cons (exec_txdone (drainSpan_drain s)),
            runEvents]
      _ = .next s.completeTransfer.drainSpan := by rw [drainSpan_completeTransfer]
      _ = runEvents [.txdone, .idle] s := by
          rw [runEvents_cons (exec_txdone hd), runEvents_cons (exec_idle hd'), runEvents]
  · obtain ⟨hidle, htxdone⟩ := exec_notification_of_drain hd
    have hd' : s.reject.drain ≠ none := hd
    obtain ⟨hidle', htxdone'⟩ := exec_notification_of_drain hd'
    rw [runEvents_cons hidle, runEvents_cons htxdone', runEvents_cons htxdone,
      runEvents_cons hidle']

end Sys2Proof.Machine

/-! # `RESET`, and a gate that stays closed (R196, R197, R270, R285) -/

namespace Sys2Proof.Machine

/-! ## `RESET` (R270) -/

/-- Settles O2: `RESET` leaves the initial state of its own parameters and trace; the registers by
evaluation, the arrays because they list nothing. -/
theorem resetBringsInitialState : Obligations.ResetBringsInitialState := fun s =>
  ⟨s.restart, rfl, rfl, rfl, rfl, rfl, rfl, rfl, rfl, rfl, rfl, rfl, rfl, rfl, rfl, rfl, rfl, rfl,
    rfl, not_written_initial s.params s.stream (s.epoch + 1) s.txOwed, rfl, rfl⟩

/-! ## What a closed gate protects (R196, R197, R285) -/

theorem endDrain_inFlight (s : State) : s.endDrain.inFlight = s.inFlight := by
  unfold State.endDrain
  split <;> rfl

/-- The gate is closed, and the transfer in flight and the pending text are those of `s`. The epoch
is among the fields because an unwritten element reads by it (log 5). -/
structure TransferHeld (s t : State) : Prop where
  closed : t.inFlight = true
  epoch : t.epoch = s.epoch
  txLen : t.txLen = s.txLen
  txBuf : t.txBuf = s.txBuf
  pendLen : t.pendLen = s.pendLen
  pendTime : t.pendTime = s.pendTime
  pendText : t.pendText = s.pendText

namespace TransferHeld

variable {s t u : State}

theorem refl (hclosed : s.inFlight = true) : TransferHeld s s :=
  ⟨hclosed, rfl, rfl, rfl, rfl, rfl, rfl⟩

theorem trans (h : TransferHeld s t) (k : TransferHeld t u) : TransferHeld s u where
  closed := k.closed
  epoch := k.epoch.trans h.epoch
  txLen := k.txLen.trans h.txLen
  txBuf := k.txBuf.trans h.txBuf
  pendLen := k.pendLen.trans h.pendLen
  pendTime := k.pendTime.trans h.pendTime
  pendText := k.pendText.trans h.pendText

/-- R250: the producer writes neither the gate nor what it protects. -/
theorem of_onlyProducer (hclosed : s.inFlight = true) (h : OnlyProducerState s t) :
    TransferHeld s t where
  closed := h.inFlight.trans hclosed
  epoch := h.epoch
  txLen := h.txLen
  txBuf := h.txBuf
  pendLen := h.pendLen
  pendTime := h.pendTime
  pendText := h.pendText

/-- R250: the interrupt context can do no more to the transfer than open the gate. -/
theorem of_onlyInterrupt (hclosed : t.inFlight = true) (h : OnlyInterruptState s t) :
    TransferHeld s t where
  closed := hclosed
  epoch := h.epoch
  txLen := h.txLen
  txBuf := h.txBuf
  pendLen := h.pendLen
  pendTime := h.pendTime
  pendText := h.pendText

/-- R145 to R149: no micro-step of `IDLE` opens the gate, so neither does `IDLE`. -/
theorem drainSpan (hclosed : s.inFlight = true) : TransferHeld s s.drainSpan := by
  have hgate : s.drainSpan.inFlight = s.inFlight :=
    drainSpan_rel (R := fun u v => v.inFlight = u.inFlight) (fun _ => rfl) (fun h k => k.trans h)
      beginDrain_inFlight deliverNext_inFlight endDrain_inFlight s
  exact of_onlyInterrupt (hgate.trans hclosed) (drainSpan_onlyInterrupt s)

/-- R197: a send at a closed gate only answers BUSY. -/
theorem send (hclosed : s.inFlight = true) (cmd : Bool) (br : Br) (now : Time) (data : List Byte) :
    TransferHeld s (s.send cmd br now data) := by
  rw [send_of_closed hclosed]
  exact { refl hclosed with }

/-- R207, R210: a closed gate skips the keep-alive of an elapsed period. -/
theorem schedulerTick (hclosed : s.inFlight = true) (br : Br) (now : Time) :
    TransferHeld s (s.schedulerTick br now) := by
  by_cases h : s.elapsed now = true
  · rw [schedulerTick_of_skipped h (.inl hclosed)]
    exact { refl hclosed with }
  · rw [schedulerTick_of_not_elapsed h]
    exact refl hclosed

/-- What is read of an array the gate protects. -/
theorem elem (h : TransferHeld s t) {a : Config.ArrayName} (ha : a = .txBuf ∨ a = .pendText)
    (i : Nat) : t.elem a i = s.elem a i := by
  rcases ha with rfl | rfl
  · exact elem_congr (a := .txBuf) h.txBuf h.epoch i
  · exact elem_congr (a := .pendText) h.pendText h.epoch i

end TransferHeld

/-- R285: every event but `TXDONE`, which opens the gate, and `RESET` leaves a closed gate closed
and what it protects as it was. -/
theorem exec_transferHeld {i : Instr} (htx : i ≠ .txdone) (hre : i ≠ .reset) {s : State}
    (hclosed : s.inFlight = true) : ∃ t, exec i s = .next t ∧ TransferHeld s t := by
  have hr : TransferHeld s s.reject := { TransferHeld.refl hclosed with }
  cases i with
  | reset => exact absurd rfl hre
  | start => exact accept_ensures hr fun _ => { TransferHeld.refl hclosed with }
  | rxbyte b => exact ⟨_, exec_rxbyte b s, .of_onlyProducer hclosed (receive_onlyProducer s b)⟩
  | idle => exact accept_ensures hr fun _ => .drainSpan hclosed
  | txdone => exact absurd rfl htx
  | idle1 =>
    exact accept_ensures hr fun _ => .of_onlyInterrupt hclosed (beginDrain_onlyInterrupt s)
  | idle2 =>
    exact accept_ensures hr fun _ =>
      .of_onlyInterrupt ((deliverNext_inFlight s).trans hclosed) (deliverNext_onlyInterrupt s)
  | idle3 =>
    exact accept_ensures hr fun _ =>
      .of_onlyInterrupt ((endDrain_inFlight s).trans hclosed) (endDrain_onlyInterrupt s)
  | sendd br now data => exact accept_ensures hr fun _ => .send hclosed false br now data
  | sendc br now data => exact accept_ensures hr fun _ => .send hclosed true br now data
  | poll br now => exact accept_ensures hr fun _ => .schedulerTick hclosed br now

theorem runEvents_transferHeld {trace : List Instr} {s : State} (hclosed : s.inFlight = true)
    (h : ∀ i ∈ trace, i ≠ .txdone ∧ i ≠ .reset) :
    ∃ t, runEvents trace s = .next t ∧ TransferHeld s t := by
  induction trace generalizing s with
  | nil => exact ⟨s, rfl, .refl hclosed⟩
  | cons i trace ih =>
    obtain ⟨htx, hre⟩ := h i List.mem_cons_self
    obtain ⟨t, ht, hstep⟩ := exec_transferHeld htx hre hclosed
    obtain ⟨u, hu, hrun⟩ := ih hstep.closed fun j hj => h j (List.mem_cons_of_mem i hj)
    exact ⟨u, (runEvents_cons ht trace).trans hu, hstep.trans hrun⟩

/-- Settles O34: the transfer is held along the whole trace. -/
theorem stuckGateKeepsTransfer : Obligations.StuckGateKeepsTransfer := by
  intro trace s hclosed h
  obtain ⟨t, ht, hheld⟩ := runEvents_transferHeld hclosed h
  exact ⟨t, ht, hheld.closed, hheld.txLen, hheld.elem (.inl rfl), hheld.pendLen, hheld.pendTime,
    hheld.elem (.inr rfl)⟩

end Sys2Proof.Machine

/-! # The model's own records: reset, conditions, and the completion owed (R14, R36, R231 to R234) -/

namespace Sys2Proof.Machine

/-! ## `RESET` and the end of the trace (R270, R274) -/

/-- Settles O3. -/
theorem resetStartsFreshEpoch : Obligations.ResetStartsFreshEpoch :=
  fun s => congrArg Host.Outcome.next (restart_eq_initial s)

/-- Settles O54, by the `ended` case of `step`. -/
theorem stepAtTraceEndDoesNothing : Obligations.StepAtTraceEndDoesNothing := by
  intro s h
  rw [step, State.nextEvent, h]
  rfl

/-! ## The gate and the environment's knowledge (R36) -/

@[simp] theorem endDrain_txOwed (s : State) : s.endDrain.txOwed = s.txOwed := by
  unfold State.endDrain
  split <;> rfl

@[simp] theorem drainSpan_txOwed (s : State) : s.drainSpan.txOwed = s.txOwed := by
  simp [State.drainSpan]

@[simp] theorem drainSpan_inFlight (s : State) : s.drainSpan.inFlight = s.inFlight := by
  simp [State.drainSpan, endDrain_inFlight]

/-- R36: the gate is closed exactly while the environment owes a completion. -/
def State.GateAgrees (s : State) : Prop := s.inFlight = s.txOwed

namespace State.GateAgrees

variable {s t : State}

/-- An operation that leaves both sides alone. -/
theorem of_eq (h : s.GateAgrees) (hg : t.inFlight = s.inFlight) (ho : t.txOwed = s.txOwed) :
    t.GateAgrees :=
  calc t.inFlight
    _ = s.inFlight := hg
    _ = s.txOwed := h
    _ = t.txOwed := ho.symm

/-- R198: a transfer that starts closes the gate and makes a completion owed, whatever held before. -/
theorem startTransfer (s : State) (now : Time) (data : List Byte) :
    (s.startTransfer now data).GateAgrees := rfl

/-- R204: `TXDONE` opens the gate and discharges the completion, whatever held before. -/
theorem completeTransfer (s : State) : s.completeTransfer.GateAgrees := rfl

theorem receive (h : s.GateAgrees) (b : Byte) : (s.receive b).GateAgrees := by
  unfold State.receive
  split
  · exact h.of_eq (noteOverrun_inFlight s) (noteOverrun_txOwed s)
  · exact h

theorem send (h : s.GateAgrees) (cmd : Bool) (br : Br) (now : Time) (data : List Byte) :
    (s.send cmd br now data).GateAgrees := by
  rcases send_cases cmd br now data s with ⟨-, he⟩ | ⟨-, -, he⟩ | ⟨-, -, he⟩ <;> rw [he]
  · exact h.of_eq rfl rfl
  · have hstarted := startTransfer (if cmd then s.recordPending now data else s) now data
    exact hstarted.of_eq rfl rfl
  · exact h.of_eq rfl rfl

theorem schedulerTick (h : s.GateAgrees) (br : Br) (now : Time) :
    (s.schedulerTick br now).GateAgrees := by
  rcases schedulerTick_cases br now s with ⟨-, he⟩ | ⟨-, -, he⟩ | ⟨-, -, -, he⟩ <;> rw [he]
  · exact h
  · exact h.of_eq rfl rfl
  · exact startTransfer _ now _

end State.GateAgrees

/-- Settles O40: by the event; a start of a transfer and `TXDONE` move both sides together, and no
other body moves either. -/
theorem gateAgreesWithEnvironment : Obligations.GateAgreesWithEnvironment := by
  intro i s hre hagree
  have h : s.GateAgrees := hagree
  have hr : s.reject.GateAgrees := h.of_eq rfl rfl
  cases i with
  | reset => exact absurd rfl hre
  | start => exact accept_ensures hr fun _ => h.of_eq rfl rfl
  | rxbyte b => exact ⟨_, exec_rxbyte b s, h.receive b⟩
  | idle =>
    exact accept_ensures hr fun _ => h.of_eq (drainSpan_inFlight s) (drainSpan_txOwed s)
  | txdone => exact accept_ensures hr fun _ => State.GateAgrees.completeTransfer s
  | idle1 => exact accept_ensures hr fun _ => h.of_eq rfl rfl
  | idle2 =>
    exact accept_ensures hr fun _ => h.of_eq (deliverNext_inFlight s) (deliverNext_txOwed s)
  | idle3 => exact accept_ensures hr fun _ => h.of_eq (endDrain_inFlight s) (endDrain_txOwed s)
  | sendd br now data => exact accept_ensures hr fun _ => h.send false br now data
  | sendc br now data => exact accept_ensures hr fun _ => h.send true br now data
  | poll br now => exact accept_ensures hr fun _ => h.schedulerTick br now

/-! ## The conditions raised (R231 to R234) -/

/-- R123, R232: a stored byte raises `Overrun` when CAPACITY bytes or more are undelivered. -/
theorem storeByte_diag (s : State) (b : Byte) : (s.storeByte b).diag =
    if s.cTotal + s.params.capacity ≤ s.wTotal then s.diag ++ [.overrun] else s.diag := by
  simp [storeByte_eq, State.overrunning]

/-- R164, R233: of the three things `INGEST` can do, only the overflow raises a condition. -/
theorem ingest_diag (s : State) (b : Byte) : (s.ingest b).diag =
    if s.params.maxLen ≤ s.cursor then s.diag ++ [.oversize] else s.diag := by
  rcases ingest_cases b s with ⟨hfull, h⟩ | ⟨hroom, -, h⟩ | ⟨hroom, -, h⟩ <;> rw [h]
  · rw [if_pos hfull, overflow_diag]
  · rw [if_neg (Nat.not_le.mpr hroom), complete_diag, appendByte_diag]
  · rw [if_neg (Nat.not_le.mpr hroom), appendByte_diag]

/-- R234: a send raises `Busy` at a closed gate, and not when the engine refuses the transfer. -/
theorem send_diag (s : State) (cmd : Bool) (br : Br) (now : Time) (data : List Byte) :
    (s.send cmd br now data).diag = if s.inFlight then s.diag ++ [.busy] else s.diag := by
  rcases send_cases cmd br now data s with ⟨hgate, h⟩ | ⟨hgate, -, h⟩ | ⟨hgate, -, h⟩ <;>
    rw [h, hgate]
  · rfl
  · cases cmd <;> rfl
  · rfl

/-- R234, R210: a keep-alive raises nothing, sent, skipped at a closed gate, or refused. -/
theorem schedulerTick_diag (s : State) (br : Br) (now : Time) :
    (s.schedulerTick br now).diag = s.diag := by
  rcases schedulerTick_cases br now s with ⟨-, h⟩ | ⟨-, -, h⟩ | ⟨-, -, -, h⟩
  · rw [h]
  · rw [h]
  · rw [h, startTransfer_diag, recordPending_diag]

/-- Settles O39, a clause for each operation that could raise a condition. -/
theorem conditionsAreMarkedWhereRaised : Obligations.ConditionsAreMarkedWhereRaised := by
  refine ⟨fun b s harmed => ?overrun, fun s d hd hne hstop hle => ?oversize,
    fun br now data s hidle hpos hle => ?busy, fun br now s => ?poll⟩
  case overrun =>
    refine ⟨_, exec_rxbyte b s, ?_⟩
    rw [receive_of_armed harmed, storeByte_diag]
  case oversize =>
    refine ⟨_, exec_idle2_of_drain hd hne, ?_⟩
    have hfull : s.params.maxLen ≤ s.cursor ↔ s.cursor = s.params.maxLen := by omega
    simp only [setPos_diag, deliver_of_not_stop hd hstop, ingest_diag, hfull]
  case busy =>
    refine ⟨_, _, exec_send hidle hpos hle false br now, exec_send hidle hpos hle true br now,
      send_diag s false br now data, ?_⟩
    rw [send_diag, send_diag]
  case poll =>
    exact accept_ensures (reject_diag s) fun _ => schedulerTick_diag s br now

end Sys2Proof.Machine
